-- ==== Sys2Proof/Word.lean ====
section
/-!
DEFINITION. The word types of the block (spec/20_memory.md R104, spec/40_primitives.md R170, R171) and the feedback
record (spec/30_encoding.md R133). Arithmetic on `F32` is in Machine/Float.lean.
-/

namespace Sys2Proof

/-- One byte of the serialized operation stream (20 R102). -/
abbrev Byte := BitVec 8

/-- One 32-bit register or operation word (20 R104, 30 R130). -/
abbrev Word := BitVec 32

/-- `INT`: a 32-bit two's-complement integer, wrapping (40 R171). -/
abbrev I32 := BitVec 32

/-- `NUM`: an IEEE-754 binary32 value, held as its bit pattern (40 R170). -/
structure F32 where
  bits : Word
  deriving DecidableEq, Repr, Inhabited

/-- The feedback record, the TICK payload, in the order of its 11 words (30 R133). -/
structure Feedback where
  currentA : F32
  currentB : F32
  currentC : F32
  voltageU : F32
  voltageA : F32
  voltageB : F32
  voltageC : F32
  hall : I32
  eabi : I32
  sine : F32
  cosine : F32
  deriving DecidableEq, Repr

/-- A frame or 2-vector `(v0, v1)` (00 R9): two values, named as the pseudocode indexes them. -/
structure Vec2 where
  v0 : F32
  v1 : F32
  deriving DecidableEq, Repr, Inhabited

/-- Three leg values, leg A, leg B, leg C. -/
structure Legs (α : Type) where
  a : α
  b : α
  c : α
  deriving DecidableEq, Repr

end Sys2Proof
end

