-- ==== Sys2Proof/Machine/Codes.lean ====
section
/-!
DEFINITION. The codes of the enumerations (spec/30_encoding.md R136-R139, spec/60_exceptions.md R501, spec/10_state.md R42),
each as a type with its `code` and the reading of a register word, `none` for a word that is no code.
-/

namespace Sys2Proof

/-- `fsm_state` (30 R136). -/
inductive FsmState where
  | idle
  | zeroDrift
  | powerStageTest
  | adjustCurrent
  | probeConstR
  | probeConstL
  | luInitiate
  | luShutdown
  | probeConstE
  | probeConstJ
  | halt
  deriving DecidableEq, Repr

def FsmState.code : FsmState → Word
  | .idle => 0
  | .zeroDrift => 1
  | .powerStageTest => 2
  | .adjustCurrent => 3
  | .probeConstR => 4
  | .probeConstL => 5
  | .luInitiate => 6
  | .luShutdown => 7
  | .probeConstE => 8
  | .probeConstJ => 9
  | .halt => 10

def FsmState.ofWord (w : Word) : Option FsmState :=
  match w.toNat with
  | 0 => some .idle
  | 1 => some .zeroDrift
  | 2 => some .powerStageTest
  | 3 => some .adjustCurrent
  | 4 => some .probeConstR
  | 5 => some .probeConstL
  | 6 => some .luInitiate
  | 7 => some .luShutdown
  | 8 => some .probeConstE
  | 9 => some .probeConstJ
  | 10 => some .halt
  | _ => none

/-- `lu_mode` (30 R137). -/
inductive LuMode where
  | disabled
  | forced
  | estimate
  | onHfi
  | detached
  | sensorHall
  | sensorAbi
  | sensorSincos
  deriving DecidableEq, Repr

def LuMode.code : LuMode → Word
  | .disabled => 0
  | .forced => 1
  | .estimate => 2
  | .onHfi => 3
  | .detached => 4
  | .sensorHall => 5
  | .sensorAbi => 6
  | .sensorSincos => 7

def LuMode.ofWord (w : Word) : Option LuMode :=
  match w.toNat with
  | 0 => some .disabled
  | 1 => some .forced
  | 2 => some .estimate
  | 3 => some .onHfi
  | 4 => some .detached
  | 5 => some .sensorHall
  | 6 => some .sensorAbi
  | 7 => some .sensorSincos
  | _ => none

/-- `flux_ZONE` (30 R138). -/
inductive Zone where
  | none
  | uncertain
  | high
  | locked
  deriving DecidableEq, Repr

def Zone.code : Zone → Word
  | .none => 0
  | .uncertain => 1
  | .high => 2
  | .locked => 3

def Zone.ofWord (w : Word) : Option Zone :=
  match w.toNat with
  | 0 => some .none
  | 1 => some .uncertain
  | 2 => some .high
  | 3 => some .locked
  | _ => Option.none

/-- `fsm_errno` (60 R501). -/
inductive Errno where
  | ok
  | instantOvercurrent
  | dcLinkOvervoltage
  | sensorHallFault
  | invalidOperation
  | zeroDriftFault
  | powerStageFault
  | noMotorConnected
  | currentSensorFault
  | currentLoopFault
  deriving DecidableEq, Repr

def Errno.code : Errno → Word
  | .ok => 0
  | .instantOvercurrent => 1
  | .dcLinkOvervoltage => 2
  | .sensorHallFault => 3
  | .invalidOperation => 4
  | .zeroDriftFault => 5
  | .powerStageFault => 6
  | .noMotorConnected => 7
  | .currentSensorFault => 8
  | .currentLoopFault => 9

/-- The fault codes that a calibration or probe procedure raises (47 R442-R447). -/
def Errno.ofProcedure (w : Word) : Option Errno :=
  match w.toNat with
  | 4 => some .invalidOperation
  | 6 => some .powerStageFault
  | 7 => some .noMotorConnected
  | 8 => some .currentSensorFault
  | 9 => some .currentLoopFault
  | _ => none

/-- `config_LU_ESTIMATE` (10 R42). -/
inductive Estimator where
  | none
  | ortega
  | kalman
  deriving DecidableEq, Repr

def Estimator.ofWord (w : Word) : Option Estimator :=
  match w.toNat with
  | 0 => some .none
  | 1 => some .ortega
  | 2 => some .kalman
  | _ => Option.none

/-- `config_LU_SENSOR` (10 R42). -/
inductive Sensor where
  | none
  | hall
  | abi
  | sincos
  deriving DecidableEq, Repr

def Sensor.ofWord (w : Word) : Option Sensor :=
  match w.toNat with
  | 0 => some .none
  | 1 => some .hall
  | 2 => some .abi
  | 3 => some .sincos
  | _ => Option.none

/-- `config_LU_LOCATION` (10 R42). -/
inductive LocationSource where
  | flux
  | abi
  | sincos
  deriving DecidableEq, Repr

def LocationSource.ofWord (w : Word) : Option LocationSource :=
  match w.toNat with
  | 0 => some .flux
  | 1 => some .abi
  | 2 => some .sincos
  | _ => Option.none

/-- `config_LU_DRIVE` (10 R42). -/
inductive Drive where
  | current
  | speed
  | location
  deriving DecidableEq, Repr

def Drive.ofWord (w : Word) : Option Drive :=
  match w.toNat with
  | 0 => some .current
  | 1 => some .speed
  | 2 => some .location
  | _ => Option.none

end Sys2Proof
end

