-- ==== Sys2Proof/Machine/Flags.lean ====
section
/-!
DEFINITION. The flag computations, as functions of the values they are computed from: the measurement-validity flags of a
leg (spec/46_voltage.md R406, R408) and the counters that saturate (spec/40_primitives.md R171).
-/

namespace Sys2Proof

/-- A flag's register word (10 R56 `bool`). -/
def Flag.word (b : Bool) : Word := if b then 1 else 0

/-- `max` of two `i32` values. -/
def I32.max (a b : I32) : I32 := if a.slt b then b else a

/-- `min` of two `i32` values. -/
def I32.min (a b : I32) : I32 := if b.slt a then b else a

/-- `sat(n + 1)`: a counter that counts up saturates at 2^31 − 1 (40 R171). -/
def I32.satInc (n : I32) : I32 := if n = 0x7FFFFFFF then n else n + 1

/-- `vsi_CF`: an edge near the sample (46 R406). -/
def Flag.clearance (res cz v : I32) : Bool := (0 : I32).slt (res - v) && (res - v).slt cz

/-- `vsi_IF`: the current sample is valid (46 R406). -/
def Flag.current (lowside : Bool) (res cz v : I32) : Bool :=
  if lowside then (I32.max cz 1).sle (res - v) else !Flag.clearance res cz v

/-- `vsi_UF`: the terminal-voltage sample is valid (46 R406). -/
def Flag.voltage (res cz v : I32) : Bool := v == 0 || v == res || (cz.sle v && v.sle (res - cz))

end Sys2Proof
end

