-- ==== Sys2Proof/Config.lean ====
section
/-!
DEFINITION. The named constants of the spec (spec/00_scope.md R8, spec/93_implementation_defined.md §6), the OPEN
parameters as plain data (`Params`, a field of State that no step changes, log entry 6), and the free values: opaque
constants with no body, of which nothing but their type can be proved (log entries 4, 5, 6, 7, 10).
-/

namespace Sys2Proof

/-! ### The literals of the source, each in one place (00 R7, R8; 93 §6) -/

/-- `N_LEGS` (00 R8). -/
def Config.legs : Nat := 3

/-- `N_KF_STATE` (43 R275). -/
def Config.kfStates : Nat := 5

/-- `N_KF_P` (43 R276). -/
def Config.kfCovariances : Nat := 15

/-- `N_KF_K` (43 R276). -/
def Config.kfGains : Nat := 10

/-- `N_HALL` (44 R321). -/
def Config.hallCodes : Nat := 6

/-- `ABI_INC_BITS` (44 R326, 40 R189). -/
def Config.abiIncBits : Nat := 16

/-- `SINCOS_FIR_N` (44 R331). -/
def Config.sincosTerms : Nat := 9

/-- `TVM_FIR_N` (41 R205). -/
def Config.tvmTaps : Nat := 3

/-- The pulses of POWER_STAGE_TEST (47 R442). -/
def Config.pstPulses : Nat := 6

/-- `HALL_INVALID_LIMIT` (44 R323). -/
def Config.hallInvalidLimit : I32 := 10

/-- `REVOL_GUARD` (42 R235). -/
def Config.revolGuard : I32 := 4

/-! ### The OPEN parameters (00 R8) -/

/-- Which implementation of an OPEN function a machine has: the spec's default or reference form, or another one its
user supplies (00 R8). -/
inductive Choice where
  | reference
  | supplied
  deriving DecidableEq, Repr

/-- The OPEN parameters of 00 R8 that are not registers. A statement over every state holds for every value of them. -/
structure Params where
  /-- `HALT_SAME_TICK` (41 R204, 60 R500). -/
  haltSameTick : Bool
  /-- `EKF_BEMF` (43 R281). -/
  ekfBemf : Bool
  /-- `HALL_ERR_LIMIT`, rad (44 R322). -/
  hallErrLimit : F32
  /-- `TRIG` (40 R173). -/
  trig : Choice
  /-- `DETACH_LOCK` (42 R240). -/
  detachLock : Choice
  /-- `FN_PST` (47 R442). -/
  pst : Choice
  /-- `FN_ADJUST` (47 R443). -/
  adjust : Choice
  /-- `FN_PROBE_R` (47 R446). -/
  probeR : Choice
  /-- `FN_PROBE_L` (47 R445). -/
  probeL : Choice
  /-- `FN_PROBE_E` (47 R447). -/
  probeE : Choice
  /-- `FN_HFI` (43 R291). -/
  hfi : Choice
  /-- `FN_MTPA` (45 R354). -/
  mtpa : Choice
  /-- `FN_SINCOS` (44 R331). -/
  sincos : Choice
  deriving DecidableEq, Repr

/-- The spec's default of every OPEN parameter (00 R8, R11): true, false, 0.5934119, the correctly rounded functions, the
reference forms. -/
def Params.default : Params where
  haltSameTick := true
  ekfBemf := false
  hallErrLimit := ⟨0x3F17E9D8⟩
  trig := .reference
  detachLock := .reference
  pst := .reference
  adjust := .reference
  probeR := .reference
  probeL := .reference
  probeE := .reference
  hfi := .reference
  mtpa := .reference
  sincos := .reference

/-! ### The free values -/

/-- FREE VALUE. The bits of the n-th computed NaN (40 R170: "Which NaN bit pattern results is a draw"). -/
opaque Config.nanBits : Nat → Word

/-- FREE VALUE. The n-th `DUTY_DRAW` (41 R207): no call, or one call, whose counts are these numbers reduced modulo
`pwm_resolution + 1`. -/
opaque Config.dutyDraw : Nat → Option (Legs Nat)

/-- FREE VALUE. Whether `min` or `max` of two zeros of opposite sign is its first operand (00 R9). -/
opaque Config.zeroTie : Word → Word → Bool

/-- FREE VALUES. The `TRIG` functions a machine's user supplies (40 R173). -/
opaque Config.sinSupplied : F32 → F32
opaque Config.cosSupplied : F32 → F32
opaque Config.sqrtSupplied : F32 → F32
opaque Config.atan2Supplied : F32 → F32 → F32

/-- FREE VALUE. The `DETACH_LOCK` predicate a machine's user supplies, of the register file (42 R240). -/
opaque Config.detachLockSupplied : List (Nat × Word) → Bool

/-! ### The configuration functions a machine's user supplies (00 R8, R11; log entry 7) -/

/-- The procedures of the command FSM that are configuration functions (47 R442-R447). -/
inductive Procedure where
  | pst
  | adjust
  | probeR
  | probeL
  | probeE
  deriving DecidableEq, Repr

/-- One act of a supplied procedure: what a micro-program of spec/47_command_fsm.md can do in a tick. -/
inductive ProcedureAct where
  /-- `emit_z` of the low three bits. -/
  | emitZ (mask : Word)
  /-- `emit_duty` of three counts, each reduced modulo `pwm_resolution + 1`. -/
  | emitDuty (d : Legs Nat)
  /-- `pm_voltage_xy`. -/
  | voltage (u : Vec2)
  /-- A write of the `k`-th of the procedure's registers. -/
  | write (k : Nat) (w : Word)
  /-- `raise Fault(code)`. -/
  | raise (code : Word)
  /-- `enter_state(HALT)`. -/
  | toHalt
  /-- `enter_state(IDLE)`. -/
  | toIdle
  deriving DecidableEq, Repr, Inhabited

/-- What a supplied `FN_HFI` gives: the HFI speed, the HFI frame and the polarity (43 R291). -/
structure HfiResult where
  wS : F32
  F : Vec2
  pol : F32
  deriving DecidableEq, Repr, Inhabited

/-- FREE VALUES. A supplied procedure: how many acts it does in a tick that begins with a register file, and each of them,
by the number of acts still to come and the register file it finds. -/
opaque Config.procedureLength : Procedure → List (Nat × Word) → Nat
opaque Config.procedureAct : Procedure → Nat → List (Nat × Word) → ProcedureAct

/-- FREE VALUE. A supplied `FN_HFI`, of the register file (43 R291). -/
opaque Config.hfiSupplied : List (Nat × Word) → HfiResult

/-- FREE VALUE. A supplied `FN_MTPA`: the D current for a Q current, of the register file (45 R354). -/
opaque Config.mtpaSupplied : List (Nat × Word) → F32 → F32

/-- FREE VALUE. A supplied `FN_SINCOS`: the corrected pair, of the coefficients, the sine and the cosine (44 R331). -/
opaque Config.sincosSupplied : List F32 → F32 → F32 → Vec2

end Sys2Proof
end

