-- ==== Sys2Proof/Machine/Float.lean ====
section
/-!
DEFINITION. IEEE-754 binary32 arithmetic, round-to-nearest-even, one rounding per operator, no fused multiply-add,
subnormals kept (spec/40_primitives.md R170), and the integer conversions of R172.

Every finite value is written `mant * 2^(quant - 1000)` with two natural numbers, so that an operation is exact integer
arithmetic followed by the one rounding of `F32.round`. A NaN result is `F32.nan` here; which bits a NaN result has in a
register is drawn where it is written (Machine/Ops.lean `State.setF`, log entry 4).
-/

namespace Sys2Proof

/-- The sign bit. -/
def F32.sign (x : F32) : Bool := x.bits.getLsbD 31

/-- The magnitude bits: exponent and fraction. -/
def F32.mag (x : F32) : Nat := x.bits.toNat % 2147483648

/-- The biased exponent field. -/
def F32.expo (x : F32) : Nat := x.mag >>> 23

/-- The fraction field. -/
def F32.frac (x : F32) : Nat := x.bits.toNat % 8388608

/-- `isnan`: all exponent bits set and a non-zero fraction. -/
def F32.isNaN (x : F32) : Bool := Nat.blt 2139095040 x.mag

/-- ±∞. -/
def F32.isInf (x : F32) : Bool := Nat.beq x.mag 2139095040

/-- `isfinite`: neither a NaN nor ±∞ (40 R172). -/
def F32.isFinite (x : F32) : Bool := Nat.blt x.mag 2139095040

/-- +0 or −0. -/
def F32.isZero (x : F32) : Bool := Nat.beq x.mag 0

/-- The significand as an integer, with the hidden bit of a normal number. -/
def F32.mant (x : F32) : Nat := if x.expo = 0 then x.frac else x.frac + 8388608

/-- The exponent of the significand's last bit, plus 1000. -/
def F32.quant (x : F32) : Nat := if x.expo = 0 then 851 else x.expo + 850

/-- A value from a sign and magnitude bits. -/
def F32.ofMag (neg : Bool) (mag : Nat) : F32 := ⟨BitVec.ofNat 32 (if neg then mag + 2147483648 else mag)⟩

/-- The NaN that stands for every NaN result inside a rule. -/
def F32.nan : F32 := ⟨0x7FC00000⟩
def F32.zero : F32 := ⟨0⟩
def F32.one : F32 := ⟨0x3F800000⟩
def F32.two : F32 := ⟨0x40000000⟩
def F32.four : F32 := ⟨0x40800000⟩
def F32.half : F32 := ⟨0x3F000000⟩
def F32.negHalf : F32 := ⟨0xBF000000⟩
def F32.oneAndHalf : F32 := ⟨0x3FC00000⟩

/-- `+∞` or `−∞`. -/
def F32.inf (neg : Bool) : F32 := F32.ofMag neg 2139095040

/-- `m / 2^sh` rounded to nearest-even, `sticky` saying that the exact value lies a little above `m` (below `m + 1`). -/
def F32.roundShift (m sh : Nat) (sticky : Bool) : Nat :=
  let t := m >>> sh
  let r := m % (1 <<< sh)
  let h := 1 <<< (sh - 1)
  if Nat.blt h r || (Nat.beq r h && (sticky || Nat.beq (t % 2) 1)) then t + 1 else t

/-- The magnitude bits of the binary32 nearest to `m * 2^(e - 1000)` (ties to even), saturating at the bits of ∞.
`sticky` says that the exact value lies strictly between `m` and `m + 1` units. -/
def F32.roundMag (m e : Nat) (sticky : Bool) : Nat :=
  if m = 0 then 0
  else
    let q := Nat.max (Nat.log2 m + e - 23) 851
    let t := if Nat.ble q e then m <<< (e - q) else F32.roundShift m (q - e) sticky
    Nat.min ((q - 851) * 8388608 + t) 2139095040

/-- The one rounding of every operator (40 R170). -/
def F32.round (neg : Bool) (m e : Nat) (sticky : Bool) : F32 := F32.ofMag neg (F32.roundMag m e sticky)

/-- Negation: the sign is flipped; a NaN gives a NaN. -/
def F32.neg (x : F32) : F32 := if x.isNaN then F32.nan else F32.ofMag (!x.sign) x.mag

/-- `abs`: the sign is cleared; a NaN gives a NaN. -/
def F32.abs (x : F32) : F32 := if x.isNaN then F32.nan else F32.ofMag false x.mag

/-- The sum of two finite values: aligned, added exactly, rounded once. An exact zero is +0 unless both are −0. -/
def F32.addFinite (x y : F32) : F32 :=
  let e := Nat.min x.quant y.quant
  let a := x.mant <<< (x.quant - e)
  let b := y.mant <<< (y.quant - e)
  if x.sign = y.sign then F32.round x.sign (a + b) e false
  else if a = b then F32.zero
  else if Nat.blt b a then F32.round x.sign (a - b) e false
  else F32.round y.sign (b - a) e false

/-- `x + y`. -/
def F32.add (x y : F32) : F32 :=
  if x.isNaN || y.isNaN then F32.nan
  else if x.isInf then (if y.isInf && x.sign != y.sign then F32.nan else x)
  else if y.isInf then y
  else F32.addFinite x y

/-- `x - y`. -/
def F32.sub (x y : F32) : F32 := x.add y.neg

/-- `x * y`. -/
def F32.mul (x y : F32) : F32 :=
  let neg := x.sign != y.sign
  if x.isNaN || y.isNaN then F32.nan
  else if x.isInf then (if y.isZero then F32.nan else F32.inf neg)
  else if y.isInf then (if x.isZero then F32.nan else F32.inf neg)
  else F32.round neg (x.mant * y.mant) (x.quant + y.quant - 1000) false

/-- `x / y`: the quotient is taken with 50 extra bits and a sticky bit before it is rounded. -/
def F32.div (x y : F32) : F32 :=
  let neg := x.sign != y.sign
  if x.isNaN || y.isNaN then F32.nan
  else if x.isInf then (if y.isInf then F32.nan else F32.inf neg)
  else if y.isInf then F32.ofMag neg 0
  else if y.isZero then (if x.isZero then F32.nan else F32.inf neg)
  else
    let n := x.mant <<< 50
    F32.round neg (n / y.mant) (x.quant + 950 - y.quant) (!Nat.beq (n % y.mant) 0)

/-- The order of the non-NaN values as integers; both zeros are 0. -/
def F32.key (x : F32) : Int := if x.sign then -(Int.ofNat x.mag) else Int.ofNat x.mag

/-- `x < y`; false when an operand is a NaN (40 R170). -/
def F32.lt (x y : F32) : Bool := !x.isNaN && !y.isNaN && decide (x.key < y.key)

/-- `x > y`. -/
def F32.gt (x y : F32) : Bool := y.lt x

/-- `x ≤ y`; false when an operand is a NaN. -/
def F32.le (x y : F32) : Bool := !x.isNaN && !y.isNaN && decide (x.key ≤ y.key)

/-- `x ≥ y`. -/
def F32.ge (x y : F32) : Bool := y.le x

/-- `x = y` as values: the zeros are equal, a NaN equals nothing. -/
def F32.eq (x y : F32) : Bool := !x.isNaN && !y.isNaN && decide (x.key = y.key)

/-- The binary32 nearest to an integer. -/
def F32.ofInt (n : Int) : F32 := F32.round (decide (n < 0)) n.natAbs 1000 false

/-- `to_f32(n)` of an `i32` (40 R172). -/
def F32.ofI32 (n : I32) : F32 := F32.ofInt n.toInt

/-- `floor_i32(v)`: defined for finite `v` with `0 ≤ v < 2^31`, else no value (40 R172). -/
def F32.floorI32 (v : F32) : Option I32 :=
  let n := if Nat.ble 1000 v.quant then v.mant <<< (v.quant - 1000) else v.mant >>> (1000 - v.quant)
  if v.isFinite && (!v.sign || v.isZero) && Nat.blt v.quant 1031 && Nat.blt n 2147483648 then some (BitVec.ofNat 32 n)
  else none

/-- `sign(v)`: 1, −1, or 0, a NaN giving 0 (00 R9). -/
def F32.signum (v : F32) : Int := if v.gt F32.zero then 1 else if v.lt F32.zero then -1 else 0

end Sys2Proof
end

