-- ==== Sys2Proof/Machine/Registers.lean ====
section
/-!
DEFINITION. The register namespace (spec/10_state.md R41-R50, spec/20_memory.md R100): every register of the controller
record under its own name, with its number and its type (R56), the table of all of them, and which values a register may
be given (R57). Numbers, names and types are the rows of 10 R42-R50, in their order.
-/

namespace Sys2Proof

/-- The types of 10 R56. An enum's legal codes are `0 … count - 1`; `lu_mode` has 7 (code 7, SENSOR_SINCOS, is refused,
R57). -/
inductive Kind where
  | f32
  | f32NonNeg
  | i32
  | intNonNeg
  | bool
  | enum (count : Nat)
  deriving DecidableEq, Repr

/-- `int≥0`: not negative as a two's-complement integer. -/
def Kind.intLegal (w : Word) : Bool := Nat.blt w.toNat 2147483648

/-- `f32≥0`: finite and not less than zero (−0 is not less than zero, log entry 19). -/
def Kind.f32Legal (w : Word) : Bool := F32.isFinite ⟨w⟩ && (!F32.sign ⟨w⟩ || F32.isZero ⟨w⟩)

/-- The values a register of this type may hold: every other one is refused (10 R57 items 1-4). -/
def Kind.legal : Kind → Word → Bool
  | .f32, _ => true
  | .f32NonNeg, w => Kind.f32Legal w
  | .i32, _ => true
  | .intNonNeg, w => Kind.intLegal w
  | .bool, w => Nat.blt w.toNat 2
  | .enum count, w => Nat.blt w.toNat count

/-- A register: its number and its type. -/
structure Reg where
  num : Nat
  kind : Kind
  deriving DecidableEq, Repr

/-- One row of the register tables: `count` registers from number `base`. -/
structure RegRow where
  base : Nat
  name : String
  kind : Kind
  count : Nat
  deriving DecidableEq, Repr


/-! ### Configuration registers (10 R42) -/

abbrev Reg.config_NOP : Reg := ⟨0, .enum 2⟩
abbrev Reg.config_IFB : Reg := ⟨1, .enum 4⟩
abbrev Reg.config_TVM : Reg := ⟨2, .bool⟩
abbrev Reg.config_LU_ESTIMATE : Reg := ⟨3, .enum 3⟩
abbrev Reg.config_LU_SENSOR : Reg := ⟨4, .enum 4⟩
abbrev Reg.config_LU_LOCATION : Reg := ⟨5, .enum 3⟩
abbrev Reg.config_LU_DRIVE : Reg := ⟨6, .enum 3⟩
abbrev Reg.config_VSI_CIRCULAR : Reg := ⟨7, .bool⟩
abbrev Reg.config_VSI_PRECISE : Reg := ⟨8, .bool⟩
abbrev Reg.config_LU_FORCED : Reg := ⟨9, .bool⟩
abbrev Reg.config_WEAKENING : Reg := ⟨10, .bool⟩
abbrev Reg.config_MTPA : Reg := ⟨11, .bool⟩
abbrev Reg.config_HFI_WAVETYPE : Reg := ⟨12, .enum 2⟩
abbrev Reg.config_HFI_POLARITY : Reg := ⟨13, .bool⟩
abbrev Reg.config_HOLDING_BRAKE : Reg := ⟨14, .bool⟩
abbrev Reg.config_SPEED_LIMITED : Reg := ⟨15, .bool⟩
abbrev Reg.config_MILEAGE : Reg := ⟨16, .bool⟩
abbrev Reg.config_ABI_ABSOLUTE : Reg := ⟨17, .bool⟩

/-! ### Plant constants (10 R43) -/

abbrev Reg.const_R : Reg := ⟨32, .f32NonNeg⟩
abbrev Reg.const_Ld : Reg := ⟨33, .f32NonNeg⟩
abbrev Reg.const_Lq : Reg := ⟨34, .f32NonNeg⟩
abbrev Reg.const_E : Reg := ⟨35, .f32NonNeg⟩
abbrev Reg.const_Zp : Reg := ⟨36, .intNonNeg⟩
abbrev Reg.const_Ja : Reg := ⟨37, .f32NonNeg⟩

/-! ### Parameters and thresholds (10 R44) -/

abbrev Reg.dT : Reg := ⟨40, .f32NonNeg⟩
abbrev Reg.pwm_resolution : Reg := ⟨41, .intNonNeg⟩
abbrev Reg.minimal_pulse : Reg := ⟨42, .intNonNeg⟩
abbrev Reg.clearance_zone : Reg := ⟨43, .intNonNeg⟩
abbrev Reg.tm_bootstrap : Reg := ⟨44, .intNonNeg⟩
abbrev Reg.tm_recharge : Reg := ⟨45, .intNonNeg⟩
abbrev Reg.adjust_IA (i : Nat) : Reg := ⟨48 + i, .f32⟩
abbrev Reg.adjust_IB (i : Nat) : Reg := ⟨50 + i, .f32⟩
abbrev Reg.adjust_IC (i : Nat) : Reg := ⟨52 + i, .f32⟩
abbrev Reg.adjust_US (i : Nat) : Reg := ⟨54 + i, .f32⟩
abbrev Reg.adjust_UA (i : Nat) : Reg := ⟨56 + i, .f32⟩
abbrev Reg.adjust_UB (i : Nat) : Reg := ⟨58 + i, .f32⟩
abbrev Reg.adjust_UC (i : Nat) : Reg := ⟨60 + i, .f32⟩
abbrev Reg.tvm_FIR_A (i : Nat) : Reg := ⟨62 + i, .f32⟩
abbrev Reg.tvm_FIR_B (i : Nat) : Reg := ⟨65 + i, .f32⟩
abbrev Reg.tvm_FIR_C (i : Nat) : Reg := ⟨68 + i, .f32⟩
abbrev Reg.fault_current_halt : Reg := ⟨72, .f32NonNeg⟩
abbrev Reg.fault_voltage_halt : Reg := ⟨73, .f32NonNeg⟩
abbrev Reg.fault_current_tol : Reg := ⟨74, .f32NonNeg⟩
abbrev Reg.fault_adjust_tol : Reg := ⟨75, .f32NonNeg⟩
abbrev Reg.lu_rate : Reg := ⟨80, .f32NonNeg⟩
abbrev Reg.tm_startup : Reg := ⟨81, .intNonNeg⟩
abbrev Reg.tm_forced_hold : Reg := ⟨82, .intNonNeg⟩
abbrev Reg.tm_hfi_hold : Reg := ⟨83, .intNonNeg⟩
abbrev Reg.lu_gain_mq_LP : Reg := ⟨84, .f32⟩
abbrev Reg.forced_hold_D : Reg := ⟨88, .f32⟩
abbrev Reg.forced_maximal : Reg := ⟨89, .f32NonNeg⟩
abbrev Reg.forced_accel : Reg := ⟨90, .f32NonNeg⟩
abbrev Reg.zone_threshold_BASE : Reg := ⟨96, .f32NonNeg⟩
abbrev Reg.zone_threshold_NOISE : Reg := ⟨97, .f32NonNeg⟩
abbrev Reg.zone_gain_TH : Reg := ⟨98, .f32NonNeg⟩
abbrev Reg.zone_gain_LP : Reg := ⟨99, .f32⟩
abbrev Reg.tm_zone : Reg := ⟨100, .intNonNeg⟩
abbrev Reg.detach_threshold_BASE : Reg := ⟨101, .f32NonNeg⟩
abbrev Reg.tm_transient : Reg := ⟨102, .intNonNeg⟩
abbrev Reg.flux_gain_ADAPT : Reg := ⟨103, .f32⟩
abbrev Reg.flux_gain_SP_LO : Reg := ⟨104, .f32⟩
abbrev Reg.flux_gain_SP_HI : Reg := ⟨105, .f32⟩
abbrev Reg.flux_blend_TH : Reg := ⟨106, .f32NonNeg⟩
abbrev Reg.flux_E_known : Reg := ⟨107, .f32NonNeg⟩
abbrev Reg.kalman_Q_I : Reg := ⟨108, .f32NonNeg⟩
abbrev Reg.kalman_Q_F : Reg := ⟨109, .f32NonNeg⟩
abbrev Reg.kalman_Q_W : Reg := ⟨110, .f32NonNeg⟩
abbrev Reg.kalman_R_I : Reg := ⟨111, .f32NonNeg⟩
abbrev Reg.lock_threshold : Reg := ⟨112, .f32NonNeg⟩
abbrev Reg.lock_gain_LP : Reg := ⟨113, .f32⟩
abbrev Reg.hfi_freq : Reg := ⟨114, .f32NonNeg⟩
abbrev Reg.hfi_amplitude : Reg := ⟨115, .f32NonNeg⟩
abbrev Reg.hfi_gain_P : Reg := ⟨116, .f32⟩
abbrev Reg.hall_ST (i : Nat) : Reg := ⟨120 + i, .f32⟩
abbrev Reg.hall_gain_LO : Reg := ⟨126, .f32⟩
abbrev Reg.hall_gain_HI : Reg := ⟨127, .f32⟩
abbrev Reg.hall_blend_TH : Reg := ⟨128, .f32NonNeg⟩
abbrev Reg.eabi_EPPR : Reg := ⟨130, .intNonNeg⟩
abbrev Reg.eabi_gear_ZS : Reg := ⟨131, .intNonNeg⟩
abbrev Reg.eabi_gear_ZQ : Reg := ⟨132, .intNonNeg⟩
abbrev Reg.eabi_gain_LP : Reg := ⟨133, .f32⟩
abbrev Reg.eabi_offset : Reg := ⟨134, .f32⟩
abbrev Reg.sincos_FIR (i : Nat) : Reg := ⟨136 + i, .f32⟩
abbrev Reg.sincos_gear_ZS : Reg := ⟨145, .intNonNeg⟩
abbrev Reg.sincos_gear_ZQ : Reg := ⟨146, .intNonNeg⟩
abbrev Reg.sincos_gain_LP : Reg := ⟨147, .f32⟩
abbrev Reg.i_setpoint_current : Reg := ⟨150, .f32⟩
abbrev Reg.i_maximal : Reg := ⟨151, .f32NonNeg⟩
abbrev Reg.i_reverse : Reg := ⟨152, .f32NonNeg⟩
abbrev Reg.i_slew_rate : Reg := ⟨153, .f32NonNeg⟩
abbrev Reg.i_gain_P : Reg := ⟨154, .f32⟩
abbrev Reg.i_gain_I : Reg := ⟨155, .f32⟩
abbrev Reg.i_headroom : Reg := ⟨156, .f32NonNeg⟩
abbrev Reg.v_maximal : Reg := ⟨157, .f32NonNeg⟩
abbrev Reg.v_reverse : Reg := ⟨158, .f32NonNeg⟩
abbrev Reg.watt_wP_maximal : Reg := ⟨159, .f32NonNeg⟩
abbrev Reg.watt_wP_reverse : Reg := ⟨160, .f32NonNeg⟩
abbrev Reg.watt_wA_maximal : Reg := ⟨161, .f32NonNeg⟩
abbrev Reg.watt_wA_reverse : Reg := ⟨162, .f32NonNeg⟩
abbrev Reg.watt_gain_LP : Reg := ⟨163, .f32⟩
abbrev Reg.weak_maximal : Reg := ⟨164, .f32NonNeg⟩
abbrev Reg.weak_gain_EU : Reg := ⟨165, .f32⟩
abbrev Reg.brake_gain : Reg := ⟨166, .f32⟩
abbrev Reg.brake_maximal : Reg := ⟨167, .f32NonNeg⟩
abbrev Reg.s_limit : Reg := ⟨168, .f32NonNeg⟩
abbrev Reg.s_limit_gain : Reg := ⟨169, .f32⟩
abbrev Reg.s_setpoint_speed : Reg := ⟨176, .f32⟩
abbrev Reg.s_maximal : Reg := ⟨177, .f32NonNeg⟩
abbrev Reg.s_accel : Reg := ⟨178, .f32NonNeg⟩
abbrev Reg.s_gain_P : Reg := ⟨179, .f32⟩
abbrev Reg.x_setpoint_location : Reg := ⟨184, .f32⟩
abbrev Reg.x_setpoint_speed : Reg := ⟨185, .f32NonNeg⟩
abbrev Reg.x_gain_N : Reg := ⟨186, .f32⟩
abbrev Reg.x_gain_F : Reg := ⟨187, .f32⟩
abbrev Reg.x_deadzone : Reg := ⟨188, .f32NonNeg⟩
abbrev Reg.tm_skip : Reg := ⟨192, .intNonNeg⟩
abbrev Reg.tm_probe : Reg := ⟨193, .intNonNeg⟩
abbrev Reg.tm_hold : Reg := ⟨194, .intNonNeg⟩
abbrev Reg.tm_halt_pause : Reg := ⟨195, .intNonNeg⟩
abbrev Reg.probe_current_hold : Reg := ⟨196, .f32⟩
abbrev Reg.probe_current_sine : Reg := ⟨197, .f32⟩
abbrev Reg.probe_freq_sine : Reg := ⟨198, .f32NonNeg⟩

/-! ### Per-cycle feedback (10 R45) -/

abbrev Reg.fb_iA : Reg := ⟨256, .f32⟩
abbrev Reg.fb_iB : Reg := ⟨257, .f32⟩
abbrev Reg.fb_iC : Reg := ⟨258, .f32⟩
abbrev Reg.fb_uS : Reg := ⟨259, .f32⟩
abbrev Reg.fb_uA : Reg := ⟨260, .f32⟩
abbrev Reg.fb_uB : Reg := ⟨261, .f32⟩
abbrev Reg.fb_uC : Reg := ⟨262, .f32⟩
abbrev Reg.fb_HS : Reg := ⟨263, .i32⟩
abbrev Reg.fb_EP : Reg := ⟨264, .i32⟩
abbrev Reg.fb_SIN : Reg := ⟨265, .f32⟩
abbrev Reg.fb_COS : Reg := ⟨266, .f32⟩
abbrev Reg.lu_iX : Reg := ⟨267, .f32⟩
abbrev Reg.lu_iY : Reg := ⟨268, .f32⟩
abbrev Reg.lu_iD : Reg := ⟨269, .f32⟩
abbrev Reg.lu_iQ : Reg := ⟨270, .f32⟩
abbrev Reg.tvm_A : Reg := ⟨271, .f32⟩
abbrev Reg.tvm_B : Reg := ⟨272, .f32⟩
abbrev Reg.tvm_C : Reg := ⟨273, .f32⟩
abbrev Reg.tvm_X : Reg := ⟨274, .f32⟩
abbrev Reg.tvm_Y : Reg := ⟨275, .f32⟩
abbrev Reg.tvm_valid : Reg := ⟨276, .bool⟩
abbrev Reg.tvm_hist (i : Nat) : Reg := ⟨277 + i, .f32⟩

/-! ### VSI bookkeeping (10 R46) -/

abbrev Reg.vsi_DC (i : Nat) : Reg := ⟨288 + i, .i32⟩
abbrev Reg.vsi_Z : Reg := ⟨291, .i32⟩
abbrev Reg.vsi_IF (i : Nat) : Reg := ⟨292 + i, .bool⟩
abbrev Reg.vsi_UF (i : Nat) : Reg := ⟨295 + i, .bool⟩
abbrev Reg.vsi_CF (i : Nat) : Reg := ⟨298 + i, .bool⟩
abbrev Reg.vsi_bst (i : Nat) : Reg := ⟨301 + i, .intNonNeg⟩
abbrev Reg.vsi_rch (i : Nat) : Reg := ⟨304 + i, .intNonNeg⟩
abbrev Reg.vsi_X : Reg := ⟨307, .f32⟩
abbrev Reg.vsi_Y : Reg := ⟨308, .f32⟩
abbrev Reg.vsi_D : Reg := ⟨309, .f32⟩
abbrev Reg.vsi_Q : Reg := ⟨310, .f32⟩
abbrev Reg.vsi_lim : Reg := ⟨311, .bool⟩
abbrev Reg.vsi_lim_tm : Reg := ⟨312, .intNonNeg⟩

/-! ### Estimator and lookup FSM (10 R47) -/

abbrev Reg.lu_mode : Reg := ⟨320, .enum 7⟩
abbrev Reg.lu_F (i : Nat) : Reg := ⟨321 + i, .f32⟩
abbrev Reg.lu_wS : Reg := ⟨323, .f32⟩
abbrev Reg.lu_tm : Reg := ⟨324, .intNonNeg⟩
abbrev Reg.lu_revol : Reg := ⟨325, .i32⟩
abbrev Reg.lu_revob : Reg := ⟨326, .i32⟩
abbrev Reg.lu_total_revol : Reg := ⟨327, .i32⟩
abbrev Reg.lu_location : Reg := ⟨328, .f32⟩
abbrev Reg.lu_mq_load : Reg := ⟨329, .f32⟩
abbrev Reg.lu_wS_prev : Reg := ⟨330, .f32⟩
abbrev Reg.lu_Fp (i : Nat) : Reg := ⟨331 + i, .f32⟩
abbrev Reg.forced_F (i : Nat) : Reg := ⟨336 + i, .f32⟩
abbrev Reg.forced_wS : Reg := ⟨338, .f32⟩
abbrev Reg.flux_F (i : Nat) : Reg := ⟨344 + i, .f32⟩
abbrev Reg.flux_wS : Reg := ⟨346, .f32⟩
abbrev Reg.flux_ZONE : Reg := ⟨347, .enum 4⟩
abbrev Reg.flux_lpf_wS : Reg := ⟨348, .f32⟩
abbrev Reg.flux_zone_tm : Reg := ⟨349, .intNonNeg⟩
abbrev Reg.flux_X (i : Nat) : Reg := ⟨350 + i, .f32⟩
abbrev Reg.flux_E : Reg := ⟨352, .f32⟩
abbrev Reg.flux_lpf_bare : Reg := ⟨353, .f32⟩
abbrev Reg.flux_detach_tm : Reg := ⟨354, .intNonNeg⟩
abbrev Reg.flux_Fb (i : Nat) : Reg := ⟨355 + i, .f32⟩
abbrev Reg.kalman_P (i : Nat) : Reg := ⟨360 + i, .f32⟩
abbrev Reg.kalman_K (i : Nat) : Reg := ⟨375 + i, .f32⟩
abbrev Reg.kalman_X (i : Nat) : Reg := ⟨385 + i, .f32⟩
abbrev Reg.kalman_uX : Reg := ⟨387, .f32⟩
abbrev Reg.kalman_uY : Reg := ⟨388, .f32⟩
abbrev Reg.kalman_pending : Reg := ⟨389, .bool⟩
abbrev Reg.hfi_inject : Reg := ⟨392, .bool⟩
abbrev Reg.hfi_wave (i : Nat) : Reg := ⟨393 + i, .f32⟩
abbrev Reg.hfi_F (i : Nat) : Reg := ⟨395 + i, .f32⟩
abbrev Reg.hfi_wS : Reg := ⟨397, .f32⟩
abbrev Reg.hfi_pol : Reg := ⟨398, .f32⟩

/-! ### Sensor fusion (10 R48) -/

abbrev Reg.hall_F (i : Nat) : Reg := ⟨400 + i, .f32⟩
abbrev Reg.hall_wS : Reg := ⟨402, .f32⟩
abbrev Reg.hall_ERR : Reg := ⟨403, .intNonNeg⟩
abbrev Reg.eabi_EP_prev : Reg := ⟨408, .i32⟩
abbrev Reg.eabi_count : Reg := ⟨409, .i32⟩
abbrev Reg.eabi_revol : Reg := ⟨410, .i32⟩
abbrev Reg.eabi_F (i : Nat) : Reg := ⟨411 + i, .f32⟩
abbrev Reg.eabi_wS : Reg := ⟨413, .f32⟩
abbrev Reg.eabi_interp : Reg := ⟨414, .f32⟩
abbrev Reg.eabi_location : Reg := ⟨415, .f32⟩
abbrev Reg.eabi_init : Reg := ⟨416, .bool⟩
abbrev Reg.sincos_S : Reg := ⟨420, .f32⟩
abbrev Reg.sincos_C : Reg := ⟨421, .f32⟩
abbrev Reg.sincos_revol : Reg := ⟨422, .i32⟩
abbrev Reg.sincos_quad : Reg := ⟨423, .i32⟩
abbrev Reg.sincos_F (i : Nat) : Reg := ⟨424 + i, .f32⟩
abbrev Reg.sincos_wS : Reg := ⟨426, .f32⟩
abbrev Reg.sincos_location : Reg := ⟨427, .f32⟩
abbrev Reg.sincos_init : Reg := ⟨428, .bool⟩

/-! ### Control loops (10 R49) -/

abbrev Reg.i_track_D : Reg := ⟨432, .f32⟩
abbrev Reg.i_track_Q : Reg := ⟨433, .f32⟩
abbrev Reg.i_integral_D : Reg := ⟨434, .f32⟩
abbrev Reg.i_integral_Q : Reg := ⟨435, .f32⟩
abbrev Reg.i_sp_D : Reg := ⟨436, .f32⟩
abbrev Reg.i_sp_Q : Reg := ⟨437, .f32⟩
abbrev Reg.weak_D : Reg := ⟨438, .f32⟩
abbrev Reg.watt_drain_wP : Reg := ⟨439, .f32⟩
abbrev Reg.watt_lpf_wP : Reg := ⟨440, .f32⟩
abbrev Reg.watt_lpf_wA : Reg := ⟨441, .f32⟩
abbrev Reg.watt_lpf_uS : Reg := ⟨442, .f32⟩
abbrev Reg.s_track : Reg := ⟨444, .f32⟩
abbrev Reg.s_iQ : Reg := ⟨445, .f32⟩
abbrev Reg.x_track : Reg := ⟨448, .f32⟩
abbrev Reg.mi_consumed_Wh : Reg := ⟨452, .f32⟩
abbrev Reg.mi_reverted_Wh : Reg := ⟨453, .f32⟩
abbrev Reg.mi_rem_c : Reg := ⟨454, .f32⟩
abbrev Reg.mi_rem_r : Reg := ⟨455, .f32⟩

/-! ### Command FSM (10 R50) -/

abbrev Reg.fsm_state : Reg := ⟨464, .enum 11⟩
abbrev Reg.fsm_phase : Reg := ⟨465, .intNonNeg⟩
abbrev Reg.fsm_req : Reg := ⟨466, .enum 11⟩
abbrev Reg.fsm_errno : Reg := ⟨467, .enum 10⟩
abbrev Reg.tm_value : Reg := ⟨468, .intNonNeg⟩
abbrev Reg.tm_end : Reg := ⟨469, .intNonNeg⟩
abbrev Reg.fsm_acc (i : Nat) : Reg := ⟨470 + i, .f32⟩
abbrev Reg.fsm_pst : Reg := ⟨486, .i32⟩

/-! ### The table of all registers -/

def RegTable.cfg : List RegRow := [
  ⟨0, "config_NOP", .enum 2, 1⟩,
  ⟨1, "config_IFB", .enum 4, 1⟩,
  ⟨2, "config_TVM", .bool, 1⟩,
  ⟨3, "config_LU_ESTIMATE", .enum 3, 1⟩,
  ⟨4, "config_LU_SENSOR", .enum 4, 1⟩,
  ⟨5, "config_LU_LOCATION", .enum 3, 1⟩,
  ⟨6, "config_LU_DRIVE", .enum 3, 1⟩,
  ⟨7, "config_VSI_CIRCULAR", .bool, 1⟩,
  ⟨8, "config_VSI_PRECISE", .bool, 1⟩,
  ⟨9, "config_LU_FORCED", .bool, 1⟩,
  ⟨10, "config_WEAKENING", .bool, 1⟩,
  ⟨11, "config_MTPA", .bool, 1⟩,
  ⟨12, "config_HFI_WAVETYPE", .enum 2, 1⟩,
  ⟨13, "config_HFI_POLARITY", .bool, 1⟩,
  ⟨14, "config_HOLDING_BRAKE", .bool, 1⟩,
  ⟨15, "config_SPEED_LIMITED", .bool, 1⟩,
  ⟨16, "config_MILEAGE", .bool, 1⟩,
  ⟨17, "config_ABI_ABSOLUTE", .bool, 1⟩]

def RegTable.const : List RegRow := [
  ⟨32, "const_R", .f32NonNeg, 1⟩,
  ⟨33, "const_Ld", .f32NonNeg, 1⟩,
  ⟨34, "const_Lq", .f32NonNeg, 1⟩,
  ⟨35, "const_E", .f32NonNeg, 1⟩,
  ⟨36, "const_Zp", .intNonNeg, 1⟩,
  ⟨37, "const_Ja", .f32NonNeg, 1⟩]

def RegTable.par1 : List RegRow := [
  ⟨40, "dT", .f32NonNeg, 1⟩,
  ⟨41, "pwm_resolution", .intNonNeg, 1⟩,
  ⟨42, "minimal_pulse", .intNonNeg, 1⟩,
  ⟨43, "clearance_zone", .intNonNeg, 1⟩,
  ⟨44, "tm_bootstrap", .intNonNeg, 1⟩,
  ⟨45, "tm_recharge", .intNonNeg, 1⟩,
  ⟨48, "adjust_IA", .f32, 2⟩,
  ⟨50, "adjust_IB", .f32, 2⟩,
  ⟨52, "adjust_IC", .f32, 2⟩,
  ⟨54, "adjust_US", .f32, 2⟩,
  ⟨56, "adjust_UA", .f32, 2⟩,
  ⟨58, "adjust_UB", .f32, 2⟩,
  ⟨60, "adjust_UC", .f32, 2⟩,
  ⟨62, "tvm_FIR_A", .f32, Config.tvmTaps⟩,
  ⟨65, "tvm_FIR_B", .f32, Config.tvmTaps⟩,
  ⟨68, "tvm_FIR_C", .f32, Config.tvmTaps⟩,
  ⟨72, "fault_current_halt", .f32NonNeg, 1⟩,
  ⟨73, "fault_voltage_halt", .f32NonNeg, 1⟩,
  ⟨74, "fault_current_tol", .f32NonNeg, 1⟩,
  ⟨75, "fault_adjust_tol", .f32NonNeg, 1⟩,
  ⟨80, "lu_rate", .f32NonNeg, 1⟩,
  ⟨81, "tm_startup", .intNonNeg, 1⟩,
  ⟨82, "tm_forced_hold", .intNonNeg, 1⟩,
  ⟨83, "tm_hfi_hold", .intNonNeg, 1⟩,
  ⟨84, "lu_gain_mq_LP", .f32, 1⟩,
  ⟨88, "forced_hold_D", .f32, 1⟩,
  ⟨89, "forced_maximal", .f32NonNeg, 1⟩,
  ⟨90, "forced_accel", .f32NonNeg, 1⟩,
  ⟨96, "zone_threshold_BASE", .f32NonNeg, 1⟩,
  ⟨97, "zone_threshold_NOISE", .f32NonNeg, 1⟩,
  ⟨98, "zone_gain_TH", .f32NonNeg, 1⟩,
  ⟨99, "zone_gain_LP", .f32, 1⟩,
  ⟨100, "tm_zone", .intNonNeg, 1⟩,
  ⟨101, "detach_threshold_BASE", .f32NonNeg, 1⟩,
  ⟨102, "tm_transient", .intNonNeg, 1⟩,
  ⟨103, "flux_gain_ADAPT", .f32, 1⟩,
  ⟨104, "flux_gain_SP_LO", .f32, 1⟩,
  ⟨105, "flux_gain_SP_HI", .f32, 1⟩,
  ⟨106, "flux_blend_TH", .f32NonNeg, 1⟩,
  ⟨107, "flux_E_known", .f32NonNeg, 1⟩]

def RegTable.par2 : List RegRow := [
  ⟨108, "kalman_Q_I", .f32NonNeg, 1⟩,
  ⟨109, "kalman_Q_F", .f32NonNeg, 1⟩,
  ⟨110, "kalman_Q_W", .f32NonNeg, 1⟩,
  ⟨111, "kalman_R_I", .f32NonNeg, 1⟩,
  ⟨112, "lock_threshold", .f32NonNeg, 1⟩,
  ⟨113, "lock_gain_LP", .f32, 1⟩,
  ⟨114, "hfi_freq", .f32NonNeg, 1⟩,
  ⟨115, "hfi_amplitude", .f32NonNeg, 1⟩,
  ⟨116, "hfi_gain_P", .f32, 1⟩,
  ⟨120, "hall_ST", .f32, Config.hallCodes⟩,
  ⟨126, "hall_gain_LO", .f32, 1⟩,
  ⟨127, "hall_gain_HI", .f32, 1⟩,
  ⟨128, "hall_blend_TH", .f32NonNeg, 1⟩,
  ⟨130, "eabi_EPPR", .intNonNeg, 1⟩,
  ⟨131, "eabi_gear_ZS", .intNonNeg, 1⟩,
  ⟨132, "eabi_gear_ZQ", .intNonNeg, 1⟩,
  ⟨133, "eabi_gain_LP", .f32, 1⟩,
  ⟨134, "eabi_offset", .f32, 1⟩,
  ⟨136, "sincos_FIR", .f32, Config.sincosTerms⟩,
  ⟨145, "sincos_gear_ZS", .intNonNeg, 1⟩,
  ⟨146, "sincos_gear_ZQ", .intNonNeg, 1⟩,
  ⟨147, "sincos_gain_LP", .f32, 1⟩,
  ⟨150, "i_setpoint_current", .f32, 1⟩,
  ⟨151, "i_maximal", .f32NonNeg, 1⟩,
  ⟨152, "i_reverse", .f32NonNeg, 1⟩,
  ⟨153, "i_slew_rate", .f32NonNeg, 1⟩,
  ⟨154, "i_gain_P", .f32, 1⟩,
  ⟨155, "i_gain_I", .f32, 1⟩,
  ⟨156, "i_headroom", .f32NonNeg, 1⟩,
  ⟨157, "v_maximal", .f32NonNeg, 1⟩,
  ⟨158, "v_reverse", .f32NonNeg, 1⟩,
  ⟨159, "watt_wP_maximal", .f32NonNeg, 1⟩,
  ⟨160, "watt_wP_reverse", .f32NonNeg, 1⟩,
  ⟨161, "watt_wA_maximal", .f32NonNeg, 1⟩,
  ⟨162, "watt_wA_reverse", .f32NonNeg, 1⟩,
  ⟨163, "watt_gain_LP", .f32, 1⟩,
  ⟨164, "weak_maximal", .f32NonNeg, 1⟩,
  ⟨165, "weak_gain_EU", .f32, 1⟩,
  ⟨166, "brake_gain", .f32, 1⟩,
  ⟨167, "brake_maximal", .f32NonNeg, 1⟩]

def RegTable.par3 : List RegRow := [
  ⟨168, "s_limit", .f32NonNeg, 1⟩,
  ⟨169, "s_limit_gain", .f32, 1⟩,
  ⟨176, "s_setpoint_speed", .f32, 1⟩,
  ⟨177, "s_maximal", .f32NonNeg, 1⟩,
  ⟨178, "s_accel", .f32NonNeg, 1⟩,
  ⟨179, "s_gain_P", .f32, 1⟩,
  ⟨184, "x_setpoint_location", .f32, 1⟩,
  ⟨185, "x_setpoint_speed", .f32NonNeg, 1⟩,
  ⟨186, "x_gain_N", .f32, 1⟩,
  ⟨187, "x_gain_F", .f32, 1⟩,
  ⟨188, "x_deadzone", .f32NonNeg, 1⟩,
  ⟨192, "tm_skip", .intNonNeg, 1⟩,
  ⟨193, "tm_probe", .intNonNeg, 1⟩,
  ⟨194, "tm_hold", .intNonNeg, 1⟩,
  ⟨195, "tm_halt_pause", .intNonNeg, 1⟩,
  ⟨196, "probe_current_hold", .f32, 1⟩,
  ⟨197, "probe_current_sine", .f32, 1⟩,
  ⟨198, "probe_freq_sine", .f32NonNeg, 1⟩]

def RegTable.fb : List RegRow := [
  ⟨256, "fb_iA", .f32, 1⟩,
  ⟨257, "fb_iB", .f32, 1⟩,
  ⟨258, "fb_iC", .f32, 1⟩,
  ⟨259, "fb_uS", .f32, 1⟩,
  ⟨260, "fb_uA", .f32, 1⟩,
  ⟨261, "fb_uB", .f32, 1⟩,
  ⟨262, "fb_uC", .f32, 1⟩,
  ⟨263, "fb_HS", .i32, 1⟩,
  ⟨264, "fb_EP", .i32, 1⟩,
  ⟨265, "fb_SIN", .f32, 1⟩,
  ⟨266, "fb_COS", .f32, 1⟩,
  ⟨267, "lu_iX", .f32, 1⟩,
  ⟨268, "lu_iY", .f32, 1⟩,
  ⟨269, "lu_iD", .f32, 1⟩,
  ⟨270, "lu_iQ", .f32, 1⟩,
  ⟨271, "tvm_A", .f32, 1⟩,
  ⟨272, "tvm_B", .f32, 1⟩,
  ⟨273, "tvm_C", .f32, 1⟩,
  ⟨274, "tvm_X", .f32, 1⟩,
  ⟨275, "tvm_Y", .f32, 1⟩,
  ⟨276, "tvm_valid", .bool, 1⟩,
  ⟨277, "tvm_hist", .f32, Config.legs * (Config.tvmTaps - 1)⟩]

def RegTable.vsi : List RegRow := [
  ⟨288, "vsi_DC", .i32, Config.legs⟩,
  ⟨291, "vsi_Z", .i32, 1⟩,
  ⟨292, "vsi_IF", .bool, Config.legs⟩,
  ⟨295, "vsi_UF", .bool, Config.legs⟩,
  ⟨298, "vsi_CF", .bool, Config.legs⟩,
  ⟨301, "vsi_bst", .intNonNeg, Config.legs⟩,
  ⟨304, "vsi_rch", .intNonNeg, Config.legs⟩,
  ⟨307, "vsi_X", .f32, 1⟩,
  ⟨308, "vsi_Y", .f32, 1⟩,
  ⟨309, "vsi_D", .f32, 1⟩,
  ⟨310, "vsi_Q", .f32, 1⟩,
  ⟨311, "vsi_lim", .bool, 1⟩,
  ⟨312, "vsi_lim_tm", .intNonNeg, 1⟩]

def RegTable.est : List RegRow := [
  ⟨320, "lu_mode", .enum 7, 1⟩,
  ⟨321, "lu_F", .f32, 2⟩,
  ⟨323, "lu_wS", .f32, 1⟩,
  ⟨324, "lu_tm", .intNonNeg, 1⟩,
  ⟨325, "lu_revol", .i32, 1⟩,
  ⟨326, "lu_revob", .i32, 1⟩,
  ⟨327, "lu_total_revol", .i32, 1⟩,
  ⟨328, "lu_location", .f32, 1⟩,
  ⟨329, "lu_mq_load", .f32, 1⟩,
  ⟨330, "lu_wS_prev", .f32, 1⟩,
  ⟨331, "lu_Fp", .f32, 2⟩,
  ⟨336, "forced_F", .f32, 2⟩,
  ⟨338, "forced_wS", .f32, 1⟩,
  ⟨344, "flux_F", .f32, 2⟩,
  ⟨346, "flux_wS", .f32, 1⟩,
  ⟨347, "flux_ZONE", .enum 4, 1⟩,
  ⟨348, "flux_lpf_wS", .f32, 1⟩,
  ⟨349, "flux_zone_tm", .intNonNeg, 1⟩,
  ⟨350, "flux_X", .f32, 2⟩,
  ⟨352, "flux_E", .f32, 1⟩,
  ⟨353, "flux_lpf_bare", .f32, 1⟩,
  ⟨354, "flux_detach_tm", .intNonNeg, 1⟩,
  ⟨355, "flux_Fb", .f32, 2⟩,
  ⟨360, "kalman_P", .f32, Config.kfCovariances⟩,
  ⟨375, "kalman_K", .f32, Config.kfGains⟩,
  ⟨385, "kalman_X", .f32, 2⟩,
  ⟨387, "kalman_uX", .f32, 1⟩,
  ⟨388, "kalman_uY", .f32, 1⟩,
  ⟨389, "kalman_pending", .bool, 1⟩,
  ⟨392, "hfi_inject", .bool, 1⟩,
  ⟨393, "hfi_wave", .f32, 2⟩,
  ⟨395, "hfi_F", .f32, 2⟩,
  ⟨397, "hfi_wS", .f32, 1⟩,
  ⟨398, "hfi_pol", .f32, 1⟩]

def RegTable.sen : List RegRow := [
  ⟨400, "hall_F", .f32, 2⟩,
  ⟨402, "hall_wS", .f32, 1⟩,
  ⟨403, "hall_ERR", .intNonNeg, 1⟩,
  ⟨408, "eabi_EP_prev", .i32, 1⟩,
  ⟨409, "eabi_count", .i32, 1⟩,
  ⟨410, "eabi_revol", .i32, 1⟩,
  ⟨411, "eabi_F", .f32, 2⟩,
  ⟨413, "eabi_wS", .f32, 1⟩,
  ⟨414, "eabi_interp", .f32, 1⟩,
  ⟨415, "eabi_location", .f32, 1⟩,
  ⟨416, "eabi_init", .bool, 1⟩,
  ⟨420, "sincos_S", .f32, 1⟩,
  ⟨421, "sincos_C", .f32, 1⟩,
  ⟨422, "sincos_revol", .i32, 1⟩,
  ⟨423, "sincos_quad", .i32, 1⟩,
  ⟨424, "sincos_F", .f32, 2⟩,
  ⟨426, "sincos_wS", .f32, 1⟩,
  ⟨427, "sincos_location", .f32, 1⟩,
  ⟨428, "sincos_init", .bool, 1⟩]

def RegTable.loop : List RegRow := [
  ⟨432, "i_track_D", .f32, 1⟩,
  ⟨433, "i_track_Q", .f32, 1⟩,
  ⟨434, "i_integral_D", .f32, 1⟩,
  ⟨435, "i_integral_Q", .f32, 1⟩,
  ⟨436, "i_sp_D", .f32, 1⟩,
  ⟨437, "i_sp_Q", .f32, 1⟩,
  ⟨438, "weak_D", .f32, 1⟩,
  ⟨439, "watt_drain_wP", .f32, 1⟩,
  ⟨440, "watt_lpf_wP", .f32, 1⟩,
  ⟨441, "watt_lpf_wA", .f32, 1⟩,
  ⟨442, "watt_lpf_uS", .f32, 1⟩,
  ⟨444, "s_track", .f32, 1⟩,
  ⟨445, "s_iQ", .f32, 1⟩,
  ⟨448, "x_track", .f32, 1⟩,
  ⟨452, "mi_consumed_Wh", .f32, 1⟩,
  ⟨453, "mi_reverted_Wh", .f32, 1⟩,
  ⟨454, "mi_rem_c", .f32, 1⟩,
  ⟨455, "mi_rem_r", .f32, 1⟩]

def RegTable.fsm : List RegRow := [
  ⟨464, "fsm_state", .enum 11, 1⟩,
  ⟨465, "fsm_phase", .intNonNeg, 1⟩,
  ⟨466, "fsm_req", .enum 11, 1⟩,
  ⟨467, "fsm_errno", .enum 10, 1⟩,
  ⟨468, "tm_value", .intNonNeg, 1⟩,
  ⟨469, "tm_end", .intNonNeg, 1⟩,
  ⟨470, "fsm_acc", .f32, 16⟩,
  ⟨486, "fsm_pst", .i32, 1⟩]

/-- Every row of 10 R42-R50. -/
def RegTable.rows : List RegRow :=
  RegTable.cfg ++ RegTable.const ++ RegTable.par1 ++ RegTable.par2 ++ RegTable.par3 ++ RegTable.fb ++ RegTable.vsi ++ RegTable.est ++ RegTable.sen ++ RegTable.loop ++ RegTable.fsm

/-- Whether a number lies in a row. -/
def RegRow.has (r : RegRow) (n : Nat) : Bool := Nat.ble r.base n && Nat.blt n (r.base + r.count)

/-- The type of an assigned register; `none` for a number no row names (20 R101). -/
def Reg.kindOf (n : Nat) : Option Kind := (RegTable.rows.find? (RegRow.has · n)).map RegRow.kind

/-- Whether a register number is assigned (20 R101). -/
def Reg.assigned (n : Nat) : Bool := (Reg.kindOf n).isSome

/-- Whether register `n` may hold `w`: it is assigned and `w` is in its type's legal set (10 R57). -/
def Reg.mayHold (n : Nat) (w : Word) : Bool :=
  match Reg.kindOf n with
  | some k => k.legal w
  | none => false

end Sys2Proof
end

