-- ==== Sys2Proof/Syntax.lean ====
section
/-!
DEFINITION. The 13 host operations (spec/30_encoding.md R144, opcode_table.json): one constructor a row, in its order.
-/

namespace Sys2Proof

/-- A decoded host operation. -/
inductive Instr where
  /-- TICK with its feedback record (48 R481). -/
  | tick (fb : Feedback)
  /-- REQ of state 1 (48 R489). -/
  | reqZeroDrift
  /-- REQ of state 2 (48 R490). -/
  | reqPowerStageTest
  /-- REQ of state 3 (48 R491). -/
  | reqAdjustCurrent
  /-- REQ of state 4 (48 R492). -/
  | reqProbeConstR
  /-- REQ of state 5 (48 R493). -/
  | reqProbeConstL
  /-- REQ of state 6 (48 R494). -/
  | reqLuInitiate
  /-- REQ of state 7 (48 R495). -/
  | reqLuShutdown
  /-- REQ of state 8 (48 R496). -/
  | reqProbeConstE
  /-- REQ of state 9 (48 R497). -/
  | reqProbeConstJ
  /-- REQ of state 10 (48 R498). -/
  | reqHalt
  /-- REG_READ of a register number (48 R482). -/
  | regRead (reg : BitVec 9)
  /-- REG_WRITE of a value word to a register number (48 R483). -/
  | regWrite (reg : BitVec 9) (value : Word)
  deriving DecidableEq, Repr

end Sys2Proof
end

