-- ==== Sys2Proof/WellFormed.lean ====
section
/-!
DEFINITION. Which operations are well formed: a REG_READ or REG_WRITE names an assigned register (spec/30_encoding.md
R132, R146; spec/20_memory.md R101). Whether the value of a REG_WRITE is legal is not a matter of its form: it is judged
when the operation is applied (spec/10_state.md R57, spec/48_host_ops.md R483).
-/

namespace Sys2Proof

/-- The operation is one the encoding admits. -/
def Instr.wellFormed : Instr → Bool
  | .tick _ => true
  | .reqZeroDrift => true
  | .reqPowerStageTest => true
  | .reqAdjustCurrent => true
  | .reqProbeConstR => true
  | .reqProbeConstL => true
  | .reqLuInitiate => true
  | .reqLuShutdown => true
  | .reqProbeConstE => true
  | .reqProbeConstJ => true
  | .reqHalt => true
  | .regRead reg => Reg.assigned reg.toNat
  | .regWrite reg _ => Reg.assigned reg.toNat

end Sys2Proof
end

