-- ==== Sys2Proof/Decode.lean ====
section
/-!
DEFINITION. The decoder and the encoder of host operations (spec/30_encoding.md R130-R133, R144-R146; spec/48_host_ops.md
R480), over the little-endian byte stream of spec/20_memory.md R102. The decoder is total: what is no operation is rejected
by name.
-/

namespace Sys2Proof

/-- Why a word or its payload is no operation (30 R146, 48 R480). -/
inductive Reject where
  /-- Fewer than four bytes are left. -/
  | shortWord
  /-- The payload is shorter than the class requires (48 R480). -/
  | shortPayload
  /-- Class 0x4-0xF. -/
  | reservedClass
  /-- A bit that the format fixes at 0 is set. -/
  | strayBits
  /-- A REQ of code 0 or of a code above 10. -/
  | badRequest
  /-- A REG_READ or REG_WRITE of an unassigned register. -/
  | unassigned
  deriving DecidableEq, Repr

/-- What the decoder reads from a byte stream, with the bytes that follow it. -/
inductive Decoded where
  | op (i : Instr) (rest : List Byte)
  | rejected (why : Reject) (rest : List Byte)
  deriving DecidableEq, Repr

/-- Four bytes as a word, the first byte least significant (20 R102). -/
def wordOfBytes (b0 b1 b2 b3 : Byte) : Word := b3 ++ b2 ++ b1 ++ b0

/-- A word as four bytes, the least significant first. -/
def bytesOfWord (w : Word) : List Byte :=
  [w.extractLsb' 0 8, w.extractLsb' 8 8, w.extractLsb' 16 8, w.extractLsb' 24 8]

/-- The next word of a stream. -/
def takeWord : List Byte → Option (Word × List Byte)
  | b0 :: b1 :: b2 :: b3 :: rest => some (wordOfBytes b0 b1 b2 b3, rest)
  | _ => none

/-- The next `n` words of a stream. -/
def takeWords : Nat → List Byte → Option (List Word × List Byte)
  | 0, bs => some ([], bs)
  | n + 1, bs =>
    match takeWord bs with
    | none => none
    | some (w, rest) =>
      match takeWords n rest with
      | none => none
      | some (ws, rest') => some (w :: ws, rest')

/-- The class, bits [31:28] (30 R130). -/
def opClass (w : Word) : Nat := w.toNat >>> 28

/-- The payload words of a class (30 R130); a reserved class has none (log entry 3). -/
def payloadWords (cls : Nat) : Nat := if cls = 0 then 11 else if cls = 3 then 1 else 0

/-- The feedback record of 11 payload words (30 R133). -/
def feedbackOf : List Word → Option Feedback
  | [iA, iB, iC, uS, uA, uB, uC, hall, eabi, sn, cs] =>
    some ⟨⟨iA⟩, ⟨iB⟩, ⟨iC⟩, ⟨uS⟩, ⟨uA⟩, ⟨uB⟩, ⟨uC⟩, hall, eabi, ⟨sn⟩, ⟨cs⟩⟩
  | _ => none

/-- The 11 payload words of a feedback record. -/
def wordsOfFeedback (fb : Feedback) : List Word :=
  [fb.currentA.bits, fb.currentB.bits, fb.currentC.bits, fb.voltageU.bits, fb.voltageA.bits, fb.voltageB.bits,
    fb.voltageC.bits, fb.hall, fb.eabi, fb.sine.bits, fb.cosine.bits]

/-- The REQ rows by state code (30 R136, R144). -/
def requestOf (code : Nat) : Option Instr :=
  match code with
  | 1 => some .reqZeroDrift
  | 2 => some .reqPowerStageTest
  | 3 => some .reqAdjustCurrent
  | 4 => some .reqProbeConstR
  | 5 => some .reqProbeConstL
  | 6 => some .reqLuInitiate
  | 7 => some .reqLuShutdown
  | 8 => some .reqProbeConstE
  | 9 => some .reqProbeConstJ
  | 10 => some .reqHalt
  | _ => none

/-- The `reg` field, bits [8:0] (30 R132). -/
def regField (w : Word) : BitVec 9 := w.extractLsb' 0 9

/-- Bits [27:9] are zero (30 R131). -/
def regFormat (w : Word) : Bool := (w.extractLsb' 9 19) == 0

/-- Bits [27:8] are zero (30 R131). -/
def reqFormat (w : Word) : Bool := (w.extractLsb' 8 20) == 0

/-- One operation word with its payload (48 R480). -/
def decodeWord (w : Word) (payload : List Word) : Except Reject Instr :=
  match opClass w with
  | 0 =>
    if w = 0 then
      match feedbackOf payload with
      | some fb => .ok (.tick fb)
      | none => .error .shortPayload
    else .error .strayBits
  | 1 =>
    if reqFormat w then
      match requestOf (w.extractLsb' 0 8).toNat with
      | some i => .ok i
      | none => .error .badRequest
    else .error .strayBits
  | 2 =>
    if !regFormat w then .error .strayBits
    else if Reg.assigned (regField w).toNat then .ok (.regRead (regField w))
    else .error .unassigned
  | 3 =>
    if !regFormat w then .error .strayBits
    else if Reg.assigned (regField w).toNat then
      match payload with
      | [v] => .ok (.regWrite (regField w) v)
      | _ => .error .shortPayload
    else .error .unassigned
  | _ => .error .reservedClass

/-- The next operation of a byte stream; a rejected word is passed over together with the payload of its class. -/
def decode (bs : List Byte) : Decoded :=
  match takeWord bs with
  | none => .rejected .shortWord []
  | some (w, rest) =>
    match takeWords (payloadWords (opClass w)) rest with
    | none => .rejected .shortPayload []
    | some (payload, rest') =>
      match decodeWord w payload with
      | .ok i => .op i rest'
      | .error why => .rejected why rest'

/-- The operation word of an operation (30 R145). -/
def encodeWord : Instr → Word
  | .tick _ => 0x00000000
  | .reqZeroDrift => 0x10000001
  | .reqPowerStageTest => 0x10000002
  | .reqAdjustCurrent => 0x10000003
  | .reqProbeConstR => 0x10000004
  | .reqProbeConstL => 0x10000005
  | .reqLuInitiate => 0x10000006
  | .reqLuShutdown => 0x10000007
  | .reqProbeConstE => 0x10000008
  | .reqProbeConstJ => 0x10000009
  | .reqHalt => 0x1000000A
  | .regRead reg => (0x100000#23) ++ reg
  | .regWrite reg _ => (0x180000#23) ++ reg

/-- The payload words of an operation (30 R130). -/
def encodePayload : Instr → List Word
  | .tick fb => wordsOfFeedback fb
  | .regWrite _ v => [v]
  | _ => []

/-- The words of an operation. -/
def encodeWords (i : Instr) : List Word := encodeWord i :: encodePayload i

/-- The bytes of an operation (20 R102). -/
def encode (i : Instr) : List Byte := (encodeWords i).flatMap bytesOfWord

/-- The 48 bytes (12 words, the longest operation) of the number `w`, of which only the low `nbits` bits count. -/
def tableBytes (nbits w : Nat) : List Byte :=
  (List.range 48).map (fun i => BitVec.ofNat 8 ((w % (1 <<< nbits)) >>> (8 * i)))

/-- The bytes of the one operation that `tableBytes` begins with: its word and the payload of its class. -/
def tableOp (nbits w : Nat) : List Byte :=
  (tableBytes nbits w).take (4 * (1 + payloadWords (((w % (1 <<< nbits)) % 4294967296) >>> 28)))

/-- The operation the decoder reads from `tableBytes`. -/
def decodeTableWord (nbits w : Nat) : Option Instr :=
  match decode (tableBytes nbits w) with
  | .op i _ => some i
  | .rejected _ _ => none

end Sys2Proof
end

