-- ==== Sys2Proof/Machine/State.lean ====
section
/-!
DEFINITION. The state of the block: the controller record (spec/10_state.md R41, R55), the tick-local marks
(spec/48_host_ops.md R481), the outputs and what the bridge holds (spec/60_exceptions.md R517), the guard (60 R510) and
the operations the host has delivered (spec/20_memory.md R108, R110). All of it is plain data.
-/

namespace Sys2Proof.Machine

/-- Why a run has no meaning after an operation: the rows of `UNMODELLED` (60 R505). The terminal state is absorbing, so
the step ends in a fault. -/
inductive Fault where
  /-- `floor_i32` outside its domain (40 R172): raised by `pm_voltage` for a leg count it cannot represent, and by the HFI,
  encoder and resolver rules that use it. Safe: the spec says no value is defined. -/
  | floorDomain
  /-- `wrap` of a finite magnitude of at least 2^24 (40 R174): raised by any rule that wraps an angle. Safe: the spec says
  no value is defined. -/
  | wrapDomain
  /-- `dft_phasor` with no samples (40 R186): raised by a probe that evaluates an empty accumulation. Safe: the spec says
  no value is defined. -/
  | dftZeroSamples
  /-- `mod(a, n)` with `n ≤ 0` (40 R188): raised by the encoder rules. Safe: the spec says no value is defined. -/
  | modNonPositive
  /-- An internal write of a value a host write would be refused (10 R57): raised by the one internal writer
  `State.set`. Safe: the spec says no value is stored. -/
  | illegalInternalWrite
  /-- A lookup step with `lu_mode` = SENSOR_SINCOS (42 R245). Safe: the spec gives that mode no behaviour. -/
  | sincosLookupStep
  /-- `pm_voltage` called with a non-finite voltage (46 R400). Safe: the spec says no duty is defined. -/
  | nonFiniteVoltage
  /-- `emit_duty` with a count outside `[0, pwm_resolution]` (46 R407). Safe: the spec says the sink takes no such
  count. -/
  | dutyOutOfRange
  /-- A second `emit_duty` in one tick (46 R407). Safe: the spec says the sink is called at most once. -/
  | dutyTwice
  /-- An enum register holds no code of its type (log entry 12): raised by a case analysis over such a register. It is
  unreachable, because no write stores such a code. Safe: it only stops. -/
  | illegalCode
  deriving DecidableEq, Repr

/-- Why the model gives an operation no meaning. No operation of this block ends so: a refused host operation (48 R488) is
a next state that changes no register (log entry 2). -/
inductive Refusal where
  /-- An instruction the model does not know yet: raised by an arm of `exec` that is rejected by name. Safe: it only
  stops. -/
  | notModelled (mnemonic : String)
  deriving DecidableEq, Repr

/-- The controller record: register numbers with their words, in rising order of number, no entry with the word 0; an
unlisted register holds 0 ("zeroed", 10 R55). -/
abbrev RegFile := List (Nat × Word)

/-- The canonical form: rising numbers, no zero words. -/
def RegFile.wf : RegFile → Bool
  | [] => true
  | [(_, w)] => decide (w ≠ 0)
  | (m, w) :: (n, v) :: rest => decide (w ≠ 0) && decide (m < n) && RegFile.wf ((n, v) :: rest)

/-- One call of an output sink (60 R517). -/
inductive SinkCall where
  /-- The duty record `(dA, dB, dC)` (30 R134). -/
  | duty (a b c : I32)
  /-- The Z mask (30 R135, R141). -/
  | z (mask : Word)
  deriving DecidableEq, Repr

/-- Why a host operation was refused (48 R488). -/
inductive RefusedOp where
  /-- It is no operation (30 R146, 48 R480). -/
  | undecodable (why : Reject)
  /-- A REG_WRITE of a value outside the register's legal set (10 R57). -/
  | illegalValue (reg : Nat) (value : Word)
  /-- A TICK inside a GUARD (30 R150). -/
  | tickInGuard
  deriving DecidableEq, Repr

/-- The tick-local marks (48 R481); they exist only during one TICK. -/
structure TickLocal where
  /-- A duty has been emitted in this tick (46 R407). -/
  emitted : Bool
  /-- The deferred HALT request (60 R500). -/
  faultLatch : Bool
  /-- The first `UNMODELLED` condition this tick reached (60 R505, log entry 13). -/
  unmodelled : Option Fault
  deriving DecidableEq, Repr

/-- No mark is set. -/
def TickLocal.none : TickLocal where
  emitted := false
  faultLatch := false
  unmodelled := Option.none

/-- What the last operation (or guarded group) gave to the outside. -/
structure Outputs where
  /-- The sink calls, in rule order (60 R517). -/
  sinks : List SinkCall
  /-- The words REG_READ returned (48 R482). -/
  responses : List Word
  /-- The refusal marks (48 R488). -/
  refused : List RefusedOp
  deriving DecidableEq, Repr

/-- No output. -/
def Outputs.none : Outputs where
  sinks := []
  responses := []
  refused := []

/-- What the bridge applies: the last duty and the last Z mask, none before the first call (60 R517, 70 R551). -/
structure Bridge where
  duty : Option (Legs I32)
  z : Option Word
  deriving DecidableEq, Repr

/-- A run of host operations as bytes (20 R102). A guarded segment is one `GUARD` (20 R110, 30 R150). -/
structure Segment where
  guarded : Bool
  bytes : List Byte
  deriving DecidableEq, Repr

/-- The whole machine. -/
structure State where
  /-- The controller record `r` (10 R41). -/
  regs : RegFile
  /-- The OPEN parameters (00 R8); no step changes them. -/
  params : Params
  /-- The index of the current control cycle (00 R9). -/
  tick : Nat
  /-- The tick-local marks, all clear outside a TICK. -/
  tl : TickLocal
  /-- The outputs of the last operation. -/
  out : Outputs
  /-- What the bridge holds. -/
  bridge : Bridge
  /-- How many operations have been refused (48 R488). -/
  refusals : Nat
  /-- A GUARD is open (20 R110). -/
  guardOpen : Bool
  /-- The model's own field: how many free values have been drawn (log entries 4, 5). -/
  draws : Nat
  /-- The operations delivered and not yet applied (log entry 1). -/
  inbox : List Segment
  deriving DecidableEq, Repr

/-- The registers that do not reset to 0 (10 R44, R46, R47, R48; 70 R551): the calibration scales 1.0, `vsi_IF` 1, the
frames and `hfi_wave` (1, 0). -/
def RegFile.reset : RegFile :=
  [(49, 0x3F800000), (51, 0x3F800000), (53, 0x3F800000), (55, 0x3F800000), (57, 0x3F800000), (59, 0x3F800000),
    (61, 0x3F800000), (292, 1), (293, 1), (294, 1), (321, 0x3F800000), (331, 0x3F800000), (336, 0x3F800000),
    (344, 0x3F800000), (355, 0x3F800000), (393, 0x3F800000), (395, 0x3F800000), (400, 0x3F800000), (411, 0x3F800000),
    (424, 0x3F800000)]

/-- The machine right after reset (70 R551): every register at its reset value, tick 0, no sink called, no GUARD open,
nothing delivered. -/
def State.reset : State where
  regs := RegFile.reset
  params := Params.default
  tick := 0
  tl := TickLocal.none
  out := Outputs.none
  bridge := ⟨none, none⟩
  refusals := 0
  guardOpen := false
  draws := 0
  inbox := []

end Sys2Proof.Machine
end

