-- ==== Sys2Proof/Machine/Ops.lean ====
section
/-!
DEFINITION. The named operations over the controller record (reads, the one internal writer), the output sinks, the
request slot, faults (spec/60_exceptions.md R500), state transfer of the command FSM (spec/47_command_fsm.md R430, R452),
and HALT, the block's exception entry and its return (60 R504, R507; 47 R449).

An operation that reaches an `UNMODELLED` condition sets `tl.unmodelled`; TICK then ends in that fault (log entry 13).
-/

namespace Sys2Proof.Machine

/-! ### The record as a map from numbers to words -/

/-- The word of register `n`; 0 when it is not listed. -/
def RegFile.get : RegFile → Nat → Word
  | [], _ => 0
  | (k, v) :: rest, n => bif Nat.beq k n then v else RegFile.get rest n

/-- The record with register `n` at `w`, in canonical form. -/
def RegFile.put : RegFile → Nat → Word → RegFile
  | [], n, w => bif w == 0 then [] else [(n, w)]
  | (k, v) :: rest, n, w =>
    bif Nat.blt k n then (k, v) :: RegFile.put rest n w
    else bif Nat.beq k n then (bif w == 0 then rest else (n, w) :: rest)
    else bif w == 0 then (k, v) :: rest else (n, w) :: (k, v) :: rest

/-! ### Reads -/

/-- The word of register number `n` (`x[n]`, 00 R9). -/
def State.word (s : State) (n : Nat) : Word := RegFile.get s.regs n

/-- An `f32` register. -/
def State.f (s : State) (r : Reg) : F32 := ⟨s.word r.num⟩

/-- An integer register. -/
def State.i (s : State) (r : Reg) : I32 := s.word r.num

/-- A `bool` register, and any test of a code for 1. -/
def State.flag (s : State) (r : Reg) : Bool := s.word r.num == 1

/-- A frame or vector register, by its handle (element 0 first). -/
def State.vec (s : State) (r : Nat → Reg) : Vec2 := ⟨s.f (r 0), s.f (r 1)⟩

/-! ### Writes -/

/-- An `UNMODELLED` condition (60 R505): the first one is kept. -/
def State.poison (s : State) (why : Fault) : State :=
  { s with tl := { s.tl with unmodelled := match s.tl.unmodelled with | some f => some f | none => some why } }

/-- The storing of a value with the side effect of 10 R57 item 5: a write to `fsm_state` also writes `fsm_phase <- 0`. -/
def State.store (s : State) (n : Nat) (w : Word) : State :=
  { s with regs := bif Nat.beq n 464 then (s.regs.put 464 w).put 465 0 else s.regs.put n w }

/-- `r.name <- w`, the one internal writer: a value a host write would be refused is `UNMODELLED` (10 R57). -/
def State.set (s : State) (r : Reg) (w : Word) : State :=
  bif r.kind.legal w then s.store r.num w else s.poison .illegalInternalWrite

/-- The bits a computed NaN has in a register: a NaN pattern that nothing constrains (40 R170, log entry 4). -/
def nanOf (b : Word) : Word := bif F32.isNaN ⟨b⟩ then b else F32.nan.bits

/-- `r.name <- v` for a computed real: a NaN takes drawn bits. -/
def State.setF (s : State) (r : Reg) (v : F32) : State :=
  bif v.isNaN then { s.set r (nanOf (Config.nanBits s.draws)) with draws := s.draws + 1 } else s.set r v.bits

/-- `r.name <- r.other`: a move keeps the bits, a NaN's too (log entry 25). -/
def State.copy (s : State) (r other : Reg) : State := s.set r (s.word other.num)

/-- `r.name <- flag`. -/
def State.setFlag (s : State) (r : Reg) (b : Bool) : State := s.set r (Flag.word b)

/-- `r.F <- v` for a computed frame or vector. -/
def State.setVec (s : State) (r : Nat → Reg) (v : Vec2) : State := (s.setF (r 0) v.v0).setF (r 1) v.v1

/-- `r.F <- r.other` for a frame. -/
def State.copyVec (s : State) (r other : Nat → Reg) : State := (s.copy (r 0) (other 0)).copy (r 1) (other 1)

/-- `r.name <- 0` for each register of a list. -/
def State.clear (s : State) : List Reg → State
  | [] => s
  | r :: rs => (s.set r 0).clear rs

/-- `r.F <- (1, 0)`. -/
def State.unitFrame (s : State) (r : Nat → Reg) : State := (s.set (r 0) F32.one.bits).set (r 1) 0

/-- `r.counter <- sat(r.counter + 1)` (40 R171). -/
def State.count1 (s : State) (r : Reg) : State := s.set r (I32.satInc (s.i r))

/-- Continue with a defined value, or reach an `UNMODELLED` condition. -/
def State.bindOr (s : State) (why : Fault) (v : Option α) (k : α → State) : State :=
  match v with
  | some a => k a
  | none => s.poison why

/-! ### Outputs (60 R517) -/

/-- A new host operation: the outputs of the previous one are gone, unless it belongs to the same guarded group. -/
def State.startOp (s : State) : State := if s.guardOpen then s else { s with out := Outputs.none }

/-- The refusal mark (30 R146, 48 R488): no register changes, nothing is emitted. -/
def State.refuse (s : State) (why : RefusedOp) : State :=
  { s with out := { s.out with refused := s.out.refused ++ [why] }, refusals := s.refusals + 1 }

/-- The response of a REG_READ (48 R482). -/
def State.respond (s : State) (w : Word) : State :=
  { s with out := { s.out with responses := s.out.responses ++ [w] } }

/-- The call `set_duty(a, b, c)` of the duty sink. -/
def State.callDuty (s : State) (d : Legs I32) : State :=
  { s with
    tl := { s.tl with emitted := true }
    out := { s.out with sinks := s.out.sinks ++ [.duty d.a d.b d.c] }
    bridge := { s.bridge with duty := some d } }

/-- The call `set_z(m)` of the Z sink. -/
def State.callZ (s : State) (m : Word) : State :=
  { s with
    out := { s.out with sinks := s.out.sinks ++ [.z m] }
    bridge := { s.bridge with z := some m } }

/-- `LOWSIDE`: `config_IFB` ∈ {AB_LOWSIDE, ABC_LOWSIDE} (46). -/
def State.lowside (s : State) : Bool := s.word Reg.config_IFB.num == 2 || s.word Reg.config_IFB.num == 3

/-- `classify()` for one leg (46 R406). -/
def State.classifyLeg (s : State) (i : Nat) : State :=
  let res := s.i Reg.pwm_resolution
  let cz := s.i Reg.clearance_zone
  let v := s.i (Reg.vsi_DC i)
  ((s.setFlag (Reg.vsi_CF i) (Flag.clearance res cz v)).setFlag (Reg.vsi_IF i)
    (Flag.current s.lowside res cz v)).setFlag (Reg.vsi_UF i) (Flag.voltage res cz v)

/-- `classify()` (46 R406). -/
def State.classify (s : State) : State := ((s.classifyLeg 0).classifyLeg 1).classifyLeg 2

/-- A count the duty sink takes: in `[0, pwm_resolution]` (30 R134). -/
def State.dutyOk (s : State) (d : I32) : Bool := (0 : I32).sle d && d.sle (s.i Reg.pwm_resolution)

/-- A free number as a count of `[0, pwm_resolution]`; every count is reached. -/
def State.drawnCount (s : State) (n : Nat) : I32 := BitVec.ofNat 32 (n % ((s.i Reg.pwm_resolution).toNat + 1))

/-- Three free counts. -/
def State.drawnDuty (s : State) (d : Legs Nat) : Legs I32 := ⟨s.drawnCount d.a, s.drawnCount d.b, s.drawnCount d.c⟩

/-- `emit_duty(a, b, c)` (46 R407). -/
def State.emitDuty (s : State) (d : Legs I32) : State :=
  if !(s.dutyOk d.a && s.dutyOk d.b && s.dutyOk d.c) then s.poison .dutyOutOfRange
  else if s.tl.emitted then s.poison .dutyTwice
  else ((((s.callDuty d).set (Reg.vsi_DC 0) d.a).set (Reg.vsi_DC 1) d.b).set (Reg.vsi_DC 2) d.c).classify

/-- The flags of leg `i` held in Z (46 R408). -/
def State.zFlags (s : State) (m : Word) (i : Nat) : State :=
  if m.getLsbD i then
    ((s.setFlag (Reg.vsi_IF i) true).setFlag (Reg.vsi_UF i) true).setFlag (Reg.vsi_CF i) false
  else s

/-- `emit_z(m)` (46 R408). -/
def State.emitZ (s : State) (m : Word) : State :=
  (((((s.callZ m).set Reg.vsi_Z m).zFlags m 0).zFlags m 1).zFlags m 2)

/-! ### The command FSM's transfers (47 R430, R452) -/

/-- `enter_state(q)`. -/
def State.enterState (s : State) (q : FsmState) : State :=
  (((s.set Reg.fsm_state q.code).set Reg.fsm_phase 0).set Reg.tm_value 0).set Reg.tm_end 0

/-- `next_phase(p, n)`. -/
def State.nextPhase (s : State) (p n : I32) : State :=
  ((s.set Reg.fsm_phase p).set Reg.tm_value 0).set Reg.tm_end n

/-- The new `tm_value` of `count()` has reached `tm_end`. -/
def State.timeUp (s : State) : Bool := (s.i Reg.tm_end).sle (I32.satInc (s.i Reg.tm_value))

/-- `if count(): done()`. -/
def State.countThen (s : State) (done : State → State) : State :=
  if s.timeUp then done (s.count1 Reg.tm_value) else s.count1 Reg.tm_value

/-! ### Requests and faults -/

/-- `REQ(q)`, the request latch (48 R487). -/
def State.request (s : State) (q : FsmState) : State :=
  if s.word Reg.fsm_req.num = FsmState.halt.code ∧ q ≠ .halt then s else s.set Reg.fsm_req q.code

/-- A HALT is requested, latched or running (60 R500 `underway`). -/
def State.haltUnderway (s : State) : Bool :=
  s.word Reg.fsm_req.num == FsmState.halt.code || s.tl.faultLatch || s.word Reg.fsm_state.num == FsmState.halt.code

/-- The first part of `raise`: the first fault wins while a HALT is underway (60 R500). -/
def State.recordErrno (s : State) (code : Errno) : State :=
  if s.word Reg.fsm_errno.num = Errno.ok.code ∨ s.haltUnderway = false then s.set Reg.fsm_errno code.code else s

/-- `raise Fault(code)`, taking the block's exception (60 R500): the cause is recorded and HALT requested. `early` says
that the caller runs in steps S1..S5. -/
def State.raise (s : State) (code : Errno) (early : Bool) : State :=
  if !s.params.haltSameTick && early then
    { s.recordErrno code with tl := { (s.recordErrno code).tl with faultLatch := true } }
  else (s.recordErrno code).set Reg.fsm_req FsmState.halt.code

/-- `apply_deferred_fault_request()`, step S9 (60 R500). -/
def State.applyDeferred (s : State) : State :=
  if s.tl.faultLatch then s.set Reg.fsm_req FsmState.halt.code else s

/-! ### HALT: the exception's handler entry and the return from it (60 R504, R507; 47 R449) -/

/-- The registers of `loops_reset()` (47 R450). -/
def loopRegs : List Reg :=
  [Reg.i_track_D, Reg.i_track_Q, Reg.i_integral_D, Reg.i_integral_Q, Reg.i_sp_D, Reg.i_sp_Q, Reg.weak_D, Reg.s_track,
    Reg.s_iQ, Reg.x_track]

/-- `loops_reset()` (47 R450). -/
def State.loopsReset (s : State) : State := s.clear loopRegs

/-- HALT phase 0: the outputs are de-energized and the settle timer is armed. -/
def State.haltEntry (s : State) : State :=
  (((((((s.set Reg.lu_mode LuMode.disabled.code).emitDuty ⟨0, 0, 0⟩).emitZ 7).loopsReset).set Reg.kalman_pending 0).set
    Reg.hfi_inject 0)).nextPhase 1 (s.i Reg.tm_halt_pause)

/-- HALT phase 1: the return to IDLE when the settle timer ends. -/
def State.haltReturn (s : State) : State := s.countThen (·.enterState .idle)

/-- `REG_WRITE(reg, v)` (48 R483): refused, or stored with the side effects of 10 R57. -/
def State.hostWrite (s : State) (n : Nat) (v : Word) : State :=
  if Reg.mayHold n v then s.store n v else s.refuse (.illegalValue n v)

end Sys2Proof.Machine
end

