-- ==== Sys2Proof/Machine/Trig.lean ====
section
/-!
DEFINITION. The default `TRIG` of spec/40_primitives.md R173: the correctly rounded binary32 result of sin, cos, atan2 and
sqrt. sqrt is exact integer arithmetic. The others are computed in fixed point with enough guard bits that their error
cannot cross a rounding boundary (log entry 8); signed zeros and infinities follow IEEE 754 where R173 is silent (log
entry 9). Which implementation a machine uses is `Params.trig` (Config.lean).
-/

namespace Sys2Proof

/-- π/2 in units of 2^-400, rounded down. -/
def Trig.halfPi400 : Nat :=
  0x1921fb54442d18469898cc51701b839a252049c1114cf98e804177d4c76273644a29410f31c6809bbdf2a33679a7486366056

/-- π/2 in units of 2^-256. -/
def Trig.halfPi256 : Nat := Trig.halfPi400 >>> 144

/-- The alternating Taylor series in units of 2^-192: `term` is the term of order `n`, `r2` the squared argument,
`pos` and `neg` the sums of the terms added and subtracted. It ends when a term vanishes. -/
def Trig.taylor (r2 : Nat) : Nat → Nat → Nat → Bool → Nat → Nat → Nat
  | 0, _, _, _, pos, neg => pos - neg
  | fuel + 1, n, term, plus, pos, neg =>
    if term = 0 then pos - neg
    else
      Trig.taylor r2 fuel (n + 2) (((term * r2) >>> 192) / ((n + 1) * (n + 2))) (!plus)
        (if plus then pos + term else pos) (if plus then neg else neg + term)

/-- sin of `r` in `[0, π/2)`, in units of 2^-192. -/
def Trig.sinFix (r : Nat) : Nat := Trig.taylor ((r * r) >>> 192) 40 1 r true 0 0

/-- cos of `r` in `[0, π/2)`, in units of 2^-192. -/
def Trig.cosFix (r : Nat) : Nat := Trig.taylor ((r * r) >>> 192) 40 0 (1 <<< 192) true 0 0

/-- The magnitude of a finite value in units of 2^-400 (exact). -/
def Trig.fix400 (x : F32) : Nat := x.mant <<< (x.quant - 600)

/-- The quadrant of a magnitude and its remainder modulo π/2 in units of 2^-192. -/
def Trig.reduce (x : F32) : Nat × Nat :=
  let v := Trig.fix400 x
  ((v / Trig.halfPi400) % 4, (v % Trig.halfPi400) >>> 208)

/-- A fixed-point result in units of 2^-192, rounded; the exact value is irrational, so it is never a tie. -/
def Trig.round192 (neg : Bool) (s : Nat) : F32 := F32.round neg s 808 true

/-- A fixed-point result in units of 2^-256, rounded. -/
def Trig.round256 (neg : Bool) (s : Nat) : F32 := F32.round neg s 744 true

/-- The default `sin` (40 R173). -/
def Trig.sin (x : F32) : F32 :=
  if !x.isFinite then F32.nan
  else if x.isZero then x
  else
    match Trig.reduce x with
    | (0, r) => Trig.round192 x.sign (Trig.sinFix r)
    | (1, r) => Trig.round192 x.sign (Trig.cosFix r)
    | (2, r) => Trig.round192 (!x.sign) (Trig.sinFix r)
    | (_, r) => Trig.round192 (!x.sign) (Trig.cosFix r)

/-- The default `cos` (40 R173). -/
def Trig.cos (x : F32) : F32 :=
  if !x.isFinite then F32.nan
  else if x.isZero then F32.one
  else
    match Trig.reduce x with
    | (0, r) => Trig.round192 false (Trig.cosFix r)
    | (1, r) => Trig.round192 true (Trig.sinFix r)
    | (2, r) => Trig.round192 true (Trig.cosFix r)
    | (_, r) => Trig.round192 false (Trig.sinFix r)

/-- Euler's series for the arc tangent in units of 2^-256: every term is positive, `z = t²/(1+t²)`. -/
def Trig.euler (z : Nat) : Nat → Nat → Nat → Nat → Nat
  | 0, _, _, sum => sum
  | fuel + 1, n, term, sum =>
    if term = 0 then sum
    else Trig.euler z fuel (n + 1) ((((term * z) >>> 256) * (2 * n)) / (2 * n + 1)) (sum + term)

/-- atan of `a/b` with `0 ≤ a ≤ b`, in units of 2^-256. -/
def Trig.atanFix (a b : Nat) : Nat :=
  let d := a * a + b * b
  Trig.euler (((a * a) <<< 256) / d) 300 1 (((a * b) <<< 256) / d) 0

/-- atan of `a/b` for `a/b < 2^-60`: the quotient, or just below it when the division is exact, since
`t - t³/3 < atan t < t`. -/
def Trig.atanTiny (neg : Bool) (a b : Nat) : F32 :=
  let sh := 64 + Nat.log2 b - Nat.log2 a
  let q := (a <<< sh) / b
  if Nat.beq ((a <<< sh) % b) 0 then F32.round neg (2 * q - 1) (999 - sh) true
  else F32.round neg q (1000 - sh) true

/-- atan2 of finite operands of which `y` is not zero and `x` is not zero: magnitudes `a = |y|`, `b = |x|` in one unit. -/
def Trig.atan2Finite (negY negX : Bool) (a b : Nat) : F32 :=
  if Nat.ble a b then
    if negX then Trig.round256 negY (2 * Trig.halfPi256 - Trig.atanFix a b)
    else if Nat.blt (a <<< 60) b then Trig.atanTiny negY a b
    else Trig.round256 negY (Trig.atanFix a b)
  else if negX then Trig.round256 negY (Trig.halfPi256 + Trig.atanFix b a)
  else Trig.round256 negY (Trig.halfPi256 - Trig.atanFix b a)

/-- The default `atan2(y, x)`, with `atan2(0, 0) = 0` (40 R173). -/
def Trig.atan2 (y x : F32) : F32 :=
  if y.isNaN || x.isNaN then F32.nan
  else if y.isZero then
    if x.isZero then F32.zero
    else if x.sign then Trig.round256 y.sign (2 * Trig.halfPi256)
    else y
  else if y.isInf then
    if x.isInf then Trig.round256 y.sign (if x.sign then 3 * (Trig.halfPi256 / 2) else Trig.halfPi256 / 2)
    else Trig.round256 y.sign Trig.halfPi256
  else if x.isInf then
    if x.sign then Trig.round256 y.sign (2 * Trig.halfPi256) else F32.ofMag y.sign 0
  else if x.isZero then Trig.round256 y.sign Trig.halfPi256
  else
    let e := Nat.min y.quant x.quant
    Trig.atan2Finite y.sign x.sign (y.mant <<< (y.quant - e)) (x.mant <<< (x.quant - e))

/-- The integer square root of `n < 2^88`, bit by bit from the top. -/
def Trig.isqrt (n : Nat) : Nat → Nat → Nat
  | 0, r => r
  | i + 1, r =>
    let r' := r + (1 <<< i)
    Trig.isqrt n i (if Nat.ble (r' * r') n then r' else r)

/-- The default `sqrt(v)`: NaN for `v < 0` (40 R173). -/
def Trig.sqrt (v : F32) : F32 :=
  if v.isNaN then F32.nan
  else if v.isZero then v
  else if v.sign then F32.nan
  else if v.isInf then v
  else
    let s := 60 + v.quant % 2
    let n := v.mant <<< s
    let r := Trig.isqrt n 44 0
    F32.round false r (500 + (v.quant - s) / 2) (!Nat.beq (r * r) n)

end Sys2Proof
end

