-- ==== Sys2Proof/Machine/Primitives.lean ====
section
/-!
DEFINITION. The numeric primitives of spec/40_primitives.md (R173-R189) as pure functions: frames, Clarke transforms,
filters, limiters, sums, DFT accumulation, integer helpers. A primitive with a limited domain answers `none` outside it
(60 R505). Sums of more than two terms are written left to right, one rounding an operator (00 R9, 40 R170).
-/

namespace Sys2Proof

/-! ### TRIG (R173) -/

def Params.sin (p : Params) (a : F32) : F32 :=
  match p.trig with
  | .reference => Trig.sin a
  | .supplied => Config.sinSupplied a

def Params.cos (p : Params) (a : F32) : F32 :=
  match p.trig with
  | .reference => Trig.cos a
  | .supplied => Config.cosSupplied a

def Params.sqrt (p : Params) (v : F32) : F32 :=
  match p.trig with
  | .reference => Trig.sqrt v
  | .supplied => Config.sqrtSupplied v

def Params.atan2 (p : Params) (y x : F32) : F32 :=
  match p.trig with
  | .reference => Trig.atan2 y x
  | .supplied => Config.atan2Supplied y x

/-! ### Constants -/

/-- `P`, binary32 π (R174). -/
def F32.pi : F32 := ⟨0x40490FDB⟩
/-- `6.2831855`, binary32 2π. -/
def F32.twoPi : F32 := ⟨0x40C90FDB⟩
/-- `K = 0.57735027`, binary32 nearest 1/√3 (R179). -/
def F32.invSqrt3 : F32 := ⟨0x3F13CD3A⟩
/-- `H = 0.8660254`, binary32 nearest √3/2 (R181). -/
def F32.halfSqrt3 : F32 := ⟨0x3F5DB3D7⟩
/-- `0.6666667` (R179). -/
def F32.twoThirds : F32 := ⟨0x3F2AAAAB⟩
/-- `0.33333334` (R179). -/
def F32.oneThird : F32 := ⟨0x3EAAAAAB⟩
/-- `0.70710677` (46 R403). -/
def F32.invSqrt2 : F32 := ⟨0x3F3504F3⟩
/-- `0.00027777778`, W·s to Wh (41 R209). -/
def F32.wattHour : F32 := ⟨0x3991A2B4⟩
/-- `2^24`, the first magnitude `wrap` does not take (R174). -/
def F32.wrapLimit : F32 := ⟨0x4B800000⟩

/-! ### `wrap` (R174) -/

/-- `while a > P: a <- a - 2*P`, for at most `fuel` rounds. -/
def F32.wrapDown : Nat → F32 → F32
  | 0, a => a
  | fuel + 1, a => bif a.gt F32.pi then F32.wrapDown fuel (a.sub F32.twoPi) else a

/-- `while a < -P: a <- a + 2*P`, for at most `fuel` rounds. -/
def F32.wrapUp : Nat → F32 → F32
  | 0, a => a
  | fuel + 1, a => bif a.lt F32.pi.neg then F32.wrapUp fuel (a.add F32.twoPi) else a

/-- `wrap(a)`: a non-finite value passes through; a finite magnitude of at least 2^24 has no value. Below 2^24 each loop
ends within 2^22 rounds. -/
def F32.wrap (a : F32) : Option F32 :=
  if !a.isFinite then some a
  else if a.abs.ge F32.wrapLimit then none
  else some (F32.wrapUp 4194304 (F32.wrapDown 4194304 a))

/-! ### Frames (R175-R178) -/

/-- The frame (1, 0). -/
def Vec2.unitX : Vec2 := ⟨F32.one, F32.zero⟩

/-- The zero vector. -/
def Vec2.zero : Vec2 := ⟨F32.zero, F32.zero⟩

/-- Both components are finite. -/
def Vec2.isFinite (v : Vec2) : Bool := v.v0.isFinite && v.v1.isFinite

/-- `rot(F, a)` (R175). -/
def Params.rot (p : Params) (F : Vec2) (a : F32) : Vec2 :=
  ⟨(F.v0.mul (p.cos a)).sub (F.v1.mul (p.sin a)), (F.v1.mul (p.cos a)).add (F.v0.mul (p.sin a))⟩

/-- `cmulc(F, G)` (R176). -/
def Vec2.cmulc (F G : Vec2) : Vec2 :=
  ⟨(F.v0.mul G.v0).add (F.v1.mul G.v1), (F.v1.mul G.v0).sub (F.v0.mul G.v1)⟩

/-- `rel(F, G)`, the signed angle from `G` to `F` (R176). -/
def Params.rel (p : Params) (F G : Vec2) : F32 := p.atan2 (F.cmulc G).v1 (F.cmulc G).v0

/-- `norm(v)` (R177). -/
def Params.norm (p : Params) (v : Vec2) : F32 := p.sqrt ((v.v0.mul v.v0).add (v.v1.mul v.v1))

/-- `unit(v)`: `(1, 0)` for a zero norm (R177). -/
def Params.unit (p : Params) (v : Vec2) : Vec2 :=
  if (p.norm v).eq F32.zero then Vec2.unitX else ⟨v.v0.div (p.norm v), v.v1.div (p.norm v)⟩

/-- `proj(F, v)`, stationary to rotating (R178). -/
def Vec2.proj (F v : Vec2) : Vec2 :=
  ⟨(F.v0.mul v.v0).add (F.v1.mul v.v1), (F.v0.mul v.v1).sub (F.v1.mul v.v0)⟩

/-- `unproj(F, w)`, rotating to stationary (R178). -/
def Vec2.unproj (F w : Vec2) : Vec2 :=
  ⟨(F.v0.mul w.v0).sub (F.v1.mul w.v1), (F.v1.mul w.v0).add (F.v0.mul w.v1)⟩

/-! ### Clarke transforms (R179-R181) -/

/-- `clarke3(A, B, C)` (R179). -/
def clarke3 (a b c : F32) : Vec2 :=
  ⟨(F32.twoThirds.mul a).sub (F32.oneThird.mul (b.add c)), F32.invSqrt3.mul (b.sub c)⟩

/-- `clarke2(A, B)` (R180). -/
def clarke2 (a b : F32) : Vec2 := ⟨a, b⟩

/-- `iclarke3(X, Y)` (R181). -/
def iclarke3 (v : Vec2) : Legs F32 :=
  ⟨v.v0, (F32.negHalf.mul v.v0).add (F32.halfSqrt3.mul v.v1), (F32.negHalf.mul v.v0).sub (F32.halfSqrt3.mul v.v1)⟩

/-- `iclarke2(X, Y)` (R181). -/
def iclarke2 (v : Vec2) : Legs F32 := ⟨v.v0, v.v1, F32.zero⟩

/-! ### Limiters, filters, sums (R182-R185) -/

/-- `clamp(v, lo, hi)`, tested in this order (R182). -/
def F32.clamp (v lo hi : F32) : F32 := if v.gt hi then hi else if v.lt lo then lo else v

/-- `min(x, y)`: a NaN operand gives a NaN, a tie of zeros of opposite sign is a free value (log entry 10). -/
def F32.min (x y : F32) : F32 :=
  if x.isNaN || y.isNaN then F32.nan
  else if x.isZero && y.isZero && x.sign != y.sign then (if Config.zeroTie x.bits y.bits then x else y)
  else if y.lt x then y else x

/-- `max(x, y)` (log entry 10). -/
def F32.max (x y : F32) : F32 :=
  if x.isNaN || y.isNaN then F32.nan
  else if x.isZero && y.isZero && x.sign != y.sign then (if Config.zeroTie x.bits y.bits then x else y)
  else if x.lt y then y else x

/-- `sign(v)` as a real: 1, −1, 0 (00 R9). -/
def F32.signF (v : F32) : F32 := if v.gt F32.zero then F32.one else if v.lt F32.zero then F32.one.neg else F32.zero

/-- `lpf(y, x, g)` (R183). -/
def lpf (y x g : F32) : F32 := y.add ((x.sub y).mul g)

/-- `slew(y, x, s)` (R184). -/
def slew (y x s : F32) : F32 := y.add ((x.sub y).clamp s.neg s)

/-- `t(0) + t(1) + … + t(n - 1)`, left to right, for `n ≥ 1` (00 R9). -/
def sumTo (n : Nat) (t : Nat → F32) : F32 := (List.range (n - 1)).foldl (fun acc k => acc.add (t (k + 1))) (t 0)

/-- `kahan_add(sum, rem, v)`: the new sum and the new remainder (R185). -/
def kahanAdd (sum rem v : F32) : F32 × F32 :=
  let y := v.sub rem
  let t := sum.add y
  (t, (t.sub sum).sub y)

/-! ### DFT accumulation (R186) -/

/-- `dft_step(re, im, x, c, s)`. -/
def dftStep (acc : Vec2) (x c s : F32) : Vec2 := ⟨acc.v0.add (x.mul c), acc.v1.add (x.mul s)⟩

/-- `dft_phasor(re, im, N)`; no value for `N = 0`. -/
def dftPhasor (acc : Vec2) (n : I32) : Option Vec2 :=
  if n = 0 then none
  else some ⟨(F32.two.mul acc.v0).div (F32.ofI32 n), (F32.two.mul acc.v1).div (F32.ofI32 n)⟩

/-! ### Integer helpers and the motor torque (R187-R189) -/

/-- `torque(iD, iQ)` from the plant constants `Zp`, `E`, `Ld`, `Lq` (R187). -/
def torqueOf (zp : I32) (E Ld Lq iD iQ : F32) : F32 :=
  (F32.oneAndHalf.mul (F32.ofI32 zp)).mul ((E.mul iQ).add (((Ld.sub Lq).mul iD).mul iQ))

/-- `mod(a, n)`: the remainder in `[0, n)`; no value for `n ≤ 0` (R188). -/
def I32.mod (a n : I32) : Option I32 :=
  if (0 : I32).slt n then some (BitVec.ofInt 32 (a.toInt % n.toInt)) else none

/-- `sext_16(v)`, of the width of the incremental encoder counter (R189). -/
def I32.sext16 (v : I32) : I32 := (v.extractLsb' 0 Config.abiIncBits).signExtend 32

/-- `clamp` of integers, tested in the order of R182. -/
def I32.clamp (v lo hi : I32) : I32 := if hi.slt v then hi else if v.slt lo then lo else v

end Sys2Proof
end

