-- ==== Sys2Proof/Machine/Operands.lean ====
section
/-!
DEFINITION. The operand forms the rules share: the configuration selections (spec/10_state.md R42), the Hall code and the
encoder count (spec/30_encoding.md R142, R143), the three legs, the gear ratios, and conditional execution.
-/

namespace Sys2Proof.Machine

/-- `if c: f`. -/
def State.when (s : State) (c : Bool) (f : State → State) : State := if c then f s else s

/-- `config_NOP` = THREE_PHASE. -/
def State.threePhase (s : State) : Bool := s.word Reg.config_NOP.num == 0

/-- `config_IFB` ∈ {ABC_INLINE, ABC_LOWSIDE}: three current sensors. -/
def State.threeSensors (s : State) : Bool := s.word Reg.config_IFB.num == 1 || s.word Reg.config_IFB.num == 3

/-- `lu_mode = m`. -/
def State.modeIs (s : State) (m : LuMode) : Bool := s.word Reg.lu_mode.num == m.code

/-- `flux_ZONE = z`. -/
def State.zoneIs (s : State) (z : Zone) : Bool := s.word Reg.flux_ZONE.num == z.code

/-- `fsm_state = q`. -/
def State.fsmIs (s : State) (q : FsmState) : Bool := s.word Reg.fsm_state.num == q.code

/-- `fsm_phase = p`. -/
def State.phaseIs (s : State) (p : Word) : Bool := s.word Reg.fsm_phase.num == p

/-- `config_LU_ESTIMATE = e`. -/
def State.estimatorIs (s : State) (e : Estimator) : Bool := Estimator.ofWord (s.word Reg.config_LU_ESTIMATE.num) == some e

/-- `config_LU_SENSOR = e`. -/
def State.sensorIs (s : State) (e : Sensor) : Bool := Sensor.ofWord (s.word Reg.config_LU_SENSOR.num) == some e

/-- `config_LU_LOCATION = e`. -/
def State.locationIs (s : State) (e : LocationSource) : Bool :=
  LocationSource.ofWord (s.word Reg.config_LU_LOCATION.num) == some e

/-- `config_LU_DRIVE = e`. -/
def State.driveIs (s : State) (e : Drive) : Bool := Drive.ofWord (s.word Reg.config_LU_DRIVE.num) == some e

/-- `r.name > 0` for an integer register. -/
def State.pos (s : State) (r : Reg) : Bool := (0 : I32).slt (s.i r)

/-- `r.name > 0` for a real register. -/
def State.posF (s : State) (r : Reg) : Bool := (s.f r).gt F32.zero

/-- A valid Hall code is 1..`N_HALL`; 0, 7 and a word with other bits set are invalid (30 R142, 44 R321). -/
def hallValid (code : Word) : Bool := Nat.ble 1 code.toNat && Nat.ble code.toNat Config.hallCodes

/-- `to_f32` of an integer register. -/
def State.toF (s : State) (r : Reg) : F32 := F32.ofI32 (s.i r)

/-- A gear ratio: `to_f32(ZS) / to_f32(ZQ)` when both are positive, else 1 (44 R326, R333). -/
def State.gear (s : State) (zs zq : Reg) : F32 :=
  if s.pos zs && s.pos zq then (s.toF zs).div (s.toF zq) else F32.one

/-- The plant's torque for a current (40 R187). -/
def State.torque (s : State) (iD iQ : F32) : F32 :=
  torqueOf (s.i Reg.const_Zp) (s.f Reg.const_E) (s.f Reg.const_Ld) (s.f Reg.const_Lq) iD iQ

/-- `Kc`, the clamp ratio of the topology (46 R403, 45 R360). -/
def State.clampRatio (s : State) : F32 := if s.threePhase then F32.invSqrt3 else F32.invSqrt2

/-- The gain blended by a normalized speed: `lo + (hi - lo)*q`, `q = 1` for a zero threshold, else
`min(abs(w)/th, 1)` (43 R272, 44 R322). -/
def blendGain (lo hi th w : F32) : F32 :=
  lo.add ((hi.sub lo).mul (if th.eq F32.zero then F32.one else (w.abs.div th).min F32.one))

end Sys2Proof.Machine
end

