-- ==== Sys2Proof/Machine/Feedback.lean ====
section
/-!
DEFINITION. Feedback ingestion and the tick's small steps (spec/41_tick_feedback.md R201-R206, R209): steps S1 to S5, the
current projection and the mileage.
-/

namespace Sys2Proof.Machine

/-- `intake(fb)` (R201): the values are moved as delivered. -/
def State.intake (s : State) (fb : Feedback) : State :=
  (((s.set Reg.fb_HS fb.hall).set Reg.fb_EP fb.eabi).set Reg.fb_SIN fb.sine.bits).set Reg.fb_COS fb.cosine.bits

/-- `cal(v, adj) = v*adj[1] + adj[0]` (R202). -/
def State.cal (s : State) (v : F32) (adj : Nat → Reg) : F32 := (v.mul (s.f (adj 1))).add (s.f (adj 0))

/-- The terminal voltages of `calibrate` (R202). -/
def State.calibrateTerminals (s : State) (fb : Feedback) : State :=
  ((s.setF Reg.fb_uA (s.cal fb.voltageA Reg.adjust_UA)).setF Reg.fb_uB (s.cal fb.voltageB Reg.adjust_UB)).setF
    Reg.fb_uC (s.cal fb.voltageC Reg.adjust_UC)

/-- `calibrate(fb)` (R202). -/
def State.calibrate (s : State) (fb : Feedback) : State :=
  (((((s.setF Reg.fb_iA (s.cal fb.currentA Reg.adjust_IA)).setF Reg.fb_iB (s.cal fb.currentB Reg.adjust_IB)).when
    s.threeSensors (fun t => t.setF Reg.fb_iC (s.cal fb.currentC Reg.adjust_IC))).setF
    Reg.fb_uS (s.cal fb.voltageU Reg.adjust_US))).when (s.flag Reg.config_TVM) (fun t => t.calibrateTerminals fb)

/-- `-(x + y)` of two phase currents. -/
def State.minusSum (s : State) (x y : Reg) : F32 := ((s.f x).add (s.f y)).neg

/-- `fb_iA`, `fb_iB`, `fb_iC` as another state holds them. -/
def State.keepCurrents (s old : State) : State :=
  ((s.set Reg.fb_iA (old.word Reg.fb_iA.num)).set Reg.fb_iB (old.word Reg.fb_iB.num)).set Reg.fb_iC
    (old.word Reg.fb_iC.num)

/-- Three sensors of which at most one has a valid sample, `|V| ≤ 1` (R203). -/
def State.fewValid (s : State) : Bool :=
  let a := s.flag (Reg.vsi_IF 0)
  let b := s.flag (Reg.vsi_IF 1)
  let c := s.flag (Reg.vsi_IF 2)
  s.threeSensors && !((a && b) || (b && c) || (a && c))

/-- The rebuilding of a missing phase in THREE_PHASE (R203): with two sensors C is always rebuilt; with three, the one
whose sample is invalid, if it is the only one. -/
def State.rebuild3 (s : State) : State :=
  let a := s.flag (Reg.vsi_IF 0)
  let b := s.flag (Reg.vsi_IF 1)
  let c := s.flag (Reg.vsi_IF 2)
  if !s.threeSensors then s.setF Reg.fb_iC (s.minusSum Reg.fb_iA Reg.fb_iB)
  else if !a && b && c then s.setF Reg.fb_iA (s.minusSum Reg.fb_iB Reg.fb_iC)
  else if a && !b && c then s.setF Reg.fb_iB (s.minusSum Reg.fb_iA Reg.fb_iC)
  else if a && b && !c then s.setF Reg.fb_iC (s.minusSum Reg.fb_iA Reg.fb_iB)
  else s

/-- The rebuilding of phase C in TWO_PHASE (R203). -/
def State.rebuild2 (s : State) : State :=
  if !s.threeSensors || !s.flag (Reg.vsi_IF 2) then s.setF Reg.fb_iC (s.minusSum Reg.fb_iA Reg.fb_iB) else s

/-- The phase currents after reconstruction (R203): with at most one valid sample of three those of the tick before, which
`old` holds (92 D59; log entry 20), in either topology; else what the topology rebuilds. -/
def State.rebuild (s old : State) : State :=
  if s.fewValid then s.keepCurrents old else if s.threePhase then s.rebuild3 else s.rebuild2

/-- The Clarke transform of three registers, in the machine's topology. -/
def State.clarkeCurrents (s : State) : State :=
  if s.threePhase then
    (s.setF Reg.lu_iX (clarke3 (s.f Reg.fb_iA) (s.f Reg.fb_iB) (s.f Reg.fb_iC)).v0).setF Reg.lu_iY
      (clarke3 (s.f Reg.fb_iA) (s.f Reg.fb_iB) (s.f Reg.fb_iC)).v1
  else (s.copy Reg.lu_iX Reg.fb_iA).copy Reg.lu_iY Reg.fb_iB

/-- `reconstruct_and_clarke()` (R203), with the state before this tick's calibration. -/
def State.reconstruct (s old : State) : State := (s.rebuild old).clarkeCurrents

/-- Steps S1 to S3: intake, calibration, reconstruction (R200). -/
def State.measure (s : State) (fb : Feedback) : State := ((s.intake fb).calibrate fb).reconstruct s

/-- `abs(r.name) > limit`. -/
def State.exceeds (s : State) (r limit : Reg) : Bool := (s.f r).abs.gt (s.f limit)

/-- The over-current test of `fault_check` (R204). -/
def State.overCurrent (s : State) : Bool :=
  s.exceeds Reg.fb_iA Reg.fault_current_halt || s.exceeds Reg.fb_iB Reg.fault_current_halt
    || s.exceeds Reg.fb_iC Reg.fault_current_halt

/-- The over-voltage test of `fault_check` (R204). -/
def State.overVoltage (s : State) : Bool := (s.f Reg.fb_uS).gt (s.f Reg.fault_voltage_halt)

/-- `fault_check()` (R204): over-current first, then over-voltage. -/
def State.faultCheck (s : State) : State :=
  (s.when s.overCurrent (·.raise .instantOvercurrent true)).when s.overVoltage (·.raise .dcLinkOvervoltage true)

/-- The `j`-th last sample of phase `p`, from 0. -/
abbrev Reg.tvmPast (p j : Nat) : Reg := Reg.tvm_hist ((Config.tvmTaps - 1) * p + j)

/-- The samples a phase's FIR takes, the newest first: `u`, then the history (R205). -/
def State.tvmSample (s : State) (u : Reg) (p : Nat) : Nat → F32
  | 0 => s.f u
  | j + 1 => s.f (Reg.tvmPast p j)

/-- The FIR of one phase: `TVM_FIR_N` taps on the newest samples (R205). -/
def State.tvmAverage (s : State) (u : Reg) (taps : Nat → Reg) (p : Nat) : F32 :=
  sumTo Config.tvmTaps (fun i => (s.f (taps i)).mul (s.tvmSample u p i))

/-- The history of phase `p` shifted, its entries `j`, …, 0, and the sample `u` taken in (R205). -/
def State.tvmShift (s : State) (u : Reg) (p : Nat) : Nat → State
  | 0 => s.copy (Reg.tvmPast p 0) u
  | j + 1 => (s.copy (Reg.tvmPast p (j + 1)) (Reg.tvmPast p j)).tvmShift u p j

/-- One phase of `tvm_filter` (R205): the average when the samples are valid, then the history shift. -/
def State.tvmPhase (s : State) (out u : Reg) (taps : Nat → Reg) (p : Nat) : State :=
  (s.when (s.flag Reg.tvm_valid) (fun t => t.setF out (s.tvmAverage u taps p))).tvmShift u p (Config.tvmTaps - 2)

/-- The stationary-frame terminal voltage (R205). -/
def State.tvmClarke (s : State) : State :=
  if s.threePhase then
    (s.setF Reg.tvm_X (clarke3 (s.f Reg.tvm_A) (s.f Reg.tvm_B) (s.f Reg.tvm_C)).v0).setF Reg.tvm_Y
      (clarke3 (s.f Reg.tvm_A) (s.f Reg.tvm_B) (s.f Reg.tvm_C)).v1
  else
    (s.setF Reg.tvm_X ((s.f Reg.tvm_A).sub (s.f Reg.tvm_C))).setF Reg.tvm_Y ((s.f Reg.tvm_B).sub (s.f Reg.tvm_C))

/-- `tvm_valid`: the previous tick's terminal-voltage samples were clean. -/
def State.tvmClean (s : State) : Bool := s.flag (Reg.vsi_UF 0) && s.flag (Reg.vsi_UF 1) && s.flag (Reg.vsi_UF 2)

/-- `tvm_filter` with TVM enabled (R205). -/
def State.tvmRun (s : State) : State :=
  ((((s.setFlag Reg.tvm_valid s.tvmClean).tvmPhase Reg.tvm_A Reg.fb_uA Reg.tvm_FIR_A 0).tvmPhase
    Reg.tvm_B Reg.fb_uB Reg.tvm_FIR_B 1).tvmPhase Reg.tvm_C Reg.fb_uC Reg.tvm_FIR_C 2).when s.tvmClean (·.tvmClarke)

/-- `tvm_filter(fb)` (R205). -/
def State.tvmFilter (s : State) : State := if s.flag Reg.config_TVM then s.tvmRun else s.setFlag Reg.tvm_valid false

/-- `project_current()` (R206). -/
def State.projectCurrent (s : State) : State :=
  let i := (s.vec Reg.lu_F).proj ⟨s.f Reg.lu_iX, s.f Reg.lu_iY⟩
  (s.setF Reg.lu_iD i.v0).setF Reg.lu_iQ i.v1

/-- Adding energy to a compensated sum (40 R185). -/
def State.addEnergy (s : State) (sum rem : Reg) (e : F32) : State :=
  (s.setF sum (kahanAdd (s.f sum) (s.f rem) e).1).setF rem (kahanAdd (s.f sum) (s.f rem) e).2

/-- The energy of this tick, Wh (R209). -/
def State.tickEnergy (s : State) : F32 := ((s.f Reg.watt_drain_wP).mul (s.f Reg.dT)).mul F32.wattHour

/-- `mileage()` (R209). -/
def State.mileage (s : State) : State :=
  if !s.flag Reg.config_MILEAGE then s
  else if s.tickEnergy.ge F32.zero then s.addEnergy Reg.mi_consumed_Wh Reg.mi_rem_c s.tickEnergy
  else s.addEnergy Reg.mi_reverted_Wh Reg.mi_rem_r s.tickEnergy.neg

/-- Steps S1 to S5 of a tick (R200). -/
def State.ingest (s : State) (fb : Feedback) : State :=
  ((s.measure fb).faultCheck).tvmFilter

end Sys2Proof.Machine
end

