-- ==== Sys2Proof/Machine/Observers.lean ====
section
/-!
DEFINITION. The flux observers, the zone classifier, the lock guard and HFI (spec/43_observers.md R271-R291).
-/

namespace Sys2Proof.Machine

/-- Writing computed reals to elements of an array register. -/
def State.setArr (s : State) (r : Nat → Reg) : List Nat → (Nat → F32) → State
  | [], _ => s
  | i :: is, v => (s.setF (r i) (v i)).setArr r is v

/-- The stationary-frame current `(lu_iX, lu_iY)`. -/
def State.current (s : State) : Vec2 := ⟨s.f Reg.lu_iX, s.f Reg.lu_iY⟩

/-- The last-issued stationary-frame voltage. -/
def State.issued (s : State) : Vec2 := ⟨s.f Reg.vsi_X, s.f Reg.vsi_Y⟩

/-- The stationary-frame terminal voltage. -/
def State.terminal (s : State) : Vec2 := ⟨s.f Reg.tvm_X, s.f Reg.tvm_Y⟩

/-! ### The Ortega observer (R271-R273) -/

/-- `pll(Fn)` (R272). -/
def State.pll (s : State) (Fn : Vec2) : State :=
  let w := s.f Reg.flux_wS
  let e := s.params.rel Fn (s.params.rot (s.vec Reg.flux_F) (w.mul (s.f Reg.dT)))
  let k := blendGain (s.f Reg.flux_gain_SP_LO) (s.f Reg.flux_gain_SP_HI) (s.f Reg.flux_blend_TH) w
  (s.setF Reg.flux_wS (w.add (k.mul e))).setVec Reg.flux_F Fn

/-- The integrated flux linkage: `flux_X + (u - R*i)*dT` (R271). -/
def State.fluxIntegral (s : State) (u : Vec2) : Vec2 :=
  ⟨(s.f (Reg.flux_X 0)).add ((u.v0.sub ((s.f Reg.const_R).mul s.current.v0)).mul (s.f Reg.dT)),
    (s.f (Reg.flux_X 1)).add ((u.v1.sub ((s.f Reg.const_R).mul s.current.v1)).mul (s.f Reg.dT))⟩

/-- The rotor flux: the flux linkage less the leakage `Ld*i` (R271). -/
def State.rotorFlux (s : State) (x : Vec2) : Vec2 :=
  ⟨x.v0.sub ((s.f Reg.const_Ld).mul s.current.v0), x.v1.sub ((s.f Reg.const_Ld).mul s.current.v1)⟩

/-- `err`, how far the flux magnitude is from `const_E` (R271). -/
def State.fluxError (s : State) (f : Vec2) : F32 :=
  ((s.f Reg.const_E).mul (s.f Reg.const_E)).sub ((f.v0.mul f.v0).add (f.v1.mul f.v1))

/-- The adaptive correction of the flux linkage `x` whose rotor flux is `f` (R271). -/
def State.adapt (s : State) (x f : Vec2) : Vec2 :=
  let g := (s.f Reg.flux_gain_ADAPT).mul (s.f Reg.dT)
  ⟨x.v0.add ((g.mul f.v0).mul (s.fluxError f)), x.v1.add ((g.mul f.v1).mul (s.fluxError f))⟩

/-- The Ortega step for a voltage (R271, R273). -/
def State.ortegaRun (s : State) (u : Vec2) : State :=
  let x := s.fluxIntegral u
  let f := s.rotorFlux x
  if (s.f Reg.const_E).gt (s.f Reg.flux_E_known) then
    let x' := s.adapt x f
    (s.setVec Reg.flux_X x').pll (s.params.unit (s.rotorFlux x'))
  else ((s.setVec Reg.flux_X x).setF Reg.flux_E (s.params.norm f)).pll (s.params.unit f)

/-- `ortega_step()` (R271): the voltage is the measured one when it is valid; with the legs in Z there is no other. -/
def State.ortegaStep (s : State) : State :=
  if s.flag Reg.tvm_valid then s.ortegaRun s.terminal
  else if s.modeIs .detached then s
  else s.ortegaRun s.issued

/-! ### The extended Kalman filter (R275-R281) -/

/-- `ekf_ok` (R275). -/
def State.ekfOk (s : State) : Bool := s.posF Reg.const_Ld && s.posF Reg.const_Lq && s.posF Reg.dT

/-- `idx(i, j)` for `i ≤ j` (R276). -/
def covIndex (i j : Nat) : Nat := Config.kfStates * i + (j - i) - i * (i - 1) / 2

/-- The rows and columns of the stored covariance entries, row by row from the diagonal (R276). -/
def covPlaces : List (Nat × Nat) :=
  (List.range Config.kfStates).flatMap (fun i => (List.range (Config.kfStates - i)).map (fun j => (i, i + j)))

/-- The row of covariance entry `n` (R276). -/
def covRow (n : Nat) : Nat := (covPlaces.getD n (0, 0)).1

/-- The column of covariance entry `n` (R276). -/
def covCol (n : Nat) : Nat := (covPlaces.getD n (0, 0)).2

/-- `S[i][j]`, the symmetric covariance (R276). -/
def State.cov (s : State) (i j : Nat) : F32 := s.f (Reg.kalman_P (covIndex (Nat.min i j) (Nat.max i j)))

/-- The state vector `x` (R275). -/
def State.ekfState (s : State) : Nat → F32
  | 0 => s.f (Reg.kalman_X 0)
  | 1 => s.f (Reg.kalman_X 1)
  | 2 => s.f (Reg.flux_F 0)
  | 3 => s.f (Reg.flux_F 1)
  | _ => s.f Reg.flux_wS

/-- The residual, measured less predicted, in the EKF frame (R279). -/
def State.ekfResidual (s : State) : Vec2 :=
  let z := (s.vec Reg.flux_F).proj s.current
  ⟨z.v0.sub (s.f (Reg.kalman_X 0)), z.v1.sub (s.f (Reg.kalman_X 1))⟩

/-- `x[i] + K[2i]*eD + K[2i+1]*eQ` (R279). -/
def State.corrected (s : State) (i : Nat) : F32 :=
  ((s.ekfState i).add ((s.f (Reg.kalman_K (2 * i))).mul s.ekfResidual.v0)).add
    ((s.f (Reg.kalman_K (2 * i + 1))).mul s.ekfResidual.v1)

/-- `kalman_correct()` (R279). -/
def State.kalmanCorrect (s : State) : State :=
  if s.ekfOk then
    (((s.setVec Reg.kalman_X ⟨s.corrected 0, s.corrected 1⟩).setVec Reg.flux_F
      (s.params.unit ⟨s.corrected 2, s.corrected 3⟩)).setF Reg.flux_wS (s.corrected 4)).setFlag Reg.kalman_pending true
  else s.setFlag Reg.kalman_pending false

/-- The registers of the covariance and of the gain (R276). -/
def covRegs : List Reg := (List.range Config.kfCovariances).map Reg.kalman_P
def gainRegs : List Reg := (List.range Config.kfGains).map Reg.kalman_K

/-- A sum over the state indices, left to right (R277). -/
def sumStates (t : Nat → F32) : F32 := sumTo Config.kfStates t

/-- `h`: the speed's cross terms are active only in zone HIGH (R277). -/
def State.ekfGate (s : State) : F32 := if s.zoneIs .high then F32.one else F32.zero

/-- `E if EKF_BEMF else 0` (R277). -/
def State.ekfE (s : State) : F32 := if s.params.ekfBemf then s.f Reg.const_E else F32.zero

/-- `a = dT / Ld` (R281). -/
def State.ekfA (s : State) : F32 := (s.f Reg.dT).div (s.f Reg.const_Ld)

/-- `b = dT / Lq` (R281). -/
def State.ekfB (s : State) : F32 := (s.f Reg.dT).div (s.f Reg.const_Lq)

/-- `w*dT`. -/
def State.ekfTurn (s : State) : F32 := (s.f Reg.flux_wS).mul (s.f Reg.dT)

/-- The current rows of the Jacobian (R277). -/
def State.jacobianCurrent (s : State) : Nat → Nat → F32
  | 0, 0 => F32.one.sub (s.ekfA.mul (s.f Reg.const_R))
  | 0, 1 => (s.ekfA.mul (s.f Reg.flux_wS)).mul (s.f Reg.const_Lq)
  | 0, 2 => s.ekfA.mul (s.f Reg.kalman_uX)
  | 0, 3 => s.ekfA.mul (s.f Reg.kalman_uY)
  | 0, 4 => ((s.ekfGate.mul s.ekfA).mul (s.f Reg.const_Lq)).mul (s.f (Reg.kalman_X 1))
  | 1, 0 => (s.ekfB.neg.mul (s.f Reg.flux_wS)).mul (s.f Reg.const_Ld)
  | 1, 1 => F32.one.sub (s.ekfB.mul (s.f Reg.const_R))
  | 1, 2 => s.ekfB.mul (s.f Reg.kalman_uY)
  | 1, 3 => s.ekfB.neg.mul (s.f Reg.kalman_uX)
  | 1, 4 => (s.ekfGate.neg.mul s.ekfB).mul (((s.f Reg.const_Ld).mul (s.f (Reg.kalman_X 0))).add s.ekfE)
  | _, _ => F32.zero

/-- The frame rows of the Jacobian, with `c = cos(w*dT)`, `sn = sin(w*dT)` (R277). -/
def State.jacobianFrame (s : State) (c sn : F32) : Nat → Nat → F32
  | 2, 2 => c
  | 2, 3 => sn.neg
  | 2, 4 => (s.ekfGate.neg.mul (s.f Reg.dT)).mul (((s.f (Reg.flux_F 0)).mul sn).add ((s.f (Reg.flux_F 1)).mul c))
  | 3, 2 => sn
  | 3, 3 => c
  | 3, 4 => (s.ekfGate.mul (s.f Reg.dT)).mul (((s.f (Reg.flux_F 0)).mul c).sub ((s.f (Reg.flux_F 1)).mul sn))
  | _, _ => F32.zero

/-- `jacobian()` (R277). -/
def State.jacobian (s : State) (i j : Nat) : F32 :=
  if i < 2 then s.jacobianCurrent i j
  else if i < 4 then s.jacobianFrame (s.params.cos s.ekfTurn) (s.params.sin s.ekfTurn) i j
  else if j = 4 then F32.one else F32.zero

/-- The predicted currents (R281). -/
def State.predictedCurrent (s : State) : Vec2 :=
  let iD := s.f (Reg.kalman_X 0)
  let iQ := s.f (Reg.kalman_X 1)
  let w := s.f Reg.flux_wS
  let u := (s.vec Reg.flux_F).proj ⟨s.f Reg.kalman_uX, s.f Reg.kalman_uY⟩
  let eQ := if s.params.ekfBemf then w.mul (s.f Reg.const_E) else F32.zero
  ⟨iD.add (s.ekfA.mul ((u.v0.sub ((s.f Reg.const_R).mul iD)).add ((w.mul (s.f Reg.const_Lq)).mul iQ))),
    iQ.add (s.ekfB.mul (((u.v1.sub ((s.f Reg.const_R).mul iQ)).sub ((w.mul (s.f Reg.const_Ld)).mul iD)).sub eQ))⟩

/-- `state_predict()` (R281). -/
def State.statePredict (s : State) : State :=
  (s.setVec Reg.kalman_X s.predictedCurrent).setVec Reg.flux_F (s.params.rot (s.vec Reg.flux_F) s.ekfTurn)

/-- `Qd(i, j)`, the process noise (R277). -/
def State.processNoise (s : State) (i j : Nat) : F32 :=
  if i = j then
    if i < 2 then s.f Reg.kalman_Q_I else if i < 4 then s.f Reg.kalman_Q_F else s.f Reg.kalman_Q_W
  else F32.zero

/-- `T[i][j] = sum_k A[i][k]*S[k][j]` (R277). -/
def State.covT (s : State) (A : Nat → Nat → F32) (i j : Nat) : F32 :=
  sumStates (fun k => (A i k).mul (s.cov k j))

/-- The predicted covariance entry (R277). -/
def State.predictedCov (s : State) (A : Nat → Nat → F32) (i j : Nat) : F32 :=
  (sumStates (fun k => (s.covT A i k).mul (A j k))).add (s.processNoise i j)

/-- `cov_predict(A)` (R277). -/
def State.covPredict (s : State) (A : Nat → Nat → F32) : State :=
  s.setArr Reg.kalman_P (List.range Config.kfCovariances) (fun n => s.predictedCov A (covRow n) (covCol n))

/-- `s00`, `s11`: a current variance with the measurement noise (R278). -/
def State.innovation (s : State) (i : Nat) : F32 := (s.cov i i).add (s.f Reg.kalman_R_I)

/-- `det` (R278). -/
def State.innovationDet (s : State) : F32 :=
  ((s.innovation 0).mul (s.innovation 1)).sub ((s.cov 0 1).mul (s.cov 0 1))

/-- The gain `K[i][0]` (R278). -/
def State.gainD (s : State) (i : Nat) : F32 :=
  (((s.cov i 0).mul (s.innovation 1)).sub ((s.cov i 1).mul (s.cov 0 1))).div s.innovationDet

/-- The gain `K[i][1]` (R278). -/
def State.gainQ (s : State) (i : Nat) : F32 :=
  (((s.cov i 1).mul (s.innovation 0)).sub ((s.cov i 0).mul (s.cov 0 1))).div s.innovationDet

/-- The updated covariance entry (R278). -/
def State.updatedCov (s : State) (i j : Nat) : F32 :=
  (s.cov i j).sub (((s.gainD i).mul (s.cov 0 j)).add ((s.gainQ i).mul (s.cov 1 j)))

/-- `gain_update()` (R278): a degenerate innovation zeroes the gain and leaves the covariance as predicted. -/
def State.gainUpdate (s : State) : State :=
  if s.innovationDet.gt F32.zero && s.innovationDet.isFinite then
    (s.setArr Reg.kalman_K (List.range Config.kfGains)
      (fun n => if n % 2 = 0 then s.gainD (n / 2) else s.gainQ (n / 2))).setArr
      Reg.kalman_P (List.range Config.kfCovariances) (fun n => s.updatedCov (covRow n) (covCol n))
  else s.clear gainRegs

/-- The postponed step once the voltage is latched: the Jacobian is taken before the state is predicted (R277, R280). -/
def State.kalmanAdvance (s : State) : State := (s.statePredict.covPredict s.jacobian).gainUpdate

/-- `kalman_postponed()` (R280). -/
def State.kalmanPostponed (s : State) : State :=
  if s.ekfOk then
    (((s.setFlag Reg.kalman_pending false).copy Reg.kalman_uX Reg.vsi_X).copy Reg.kalman_uY Reg.vsi_Y).kalmanAdvance
  else s.setFlag Reg.kalman_pending false

/-! ### The zone classifier (R285, R286) -/

/-- `r.flux_ZONE <- z`. -/
def State.setZone (s : State) (z : Zone) : State := s.set Reg.flux_ZONE z.code

/-- The filtered speed of the zone classifier. -/
def State.zoneFilter (s : State) : State :=
  s.setF Reg.flux_lpf_wS (lpf (s.f Reg.flux_lpf_wS) (s.f Reg.flux_wS) (s.f Reg.zone_gain_LP))

/-- `m`, the smaller of the smoothed and the instantaneous speed (R285). -/
def State.zoneSpeed (s : State) : F32 := (s.f Reg.flux_lpf_wS).abs.min (s.f Reg.flux_wS).abs

/-- `m > hi` (R285). -/
def State.zoneAbove (s : State) : Bool :=
  s.zoneSpeed.gt ((s.f Reg.zone_threshold_BASE).add (s.f Reg.zone_threshold_NOISE))

/-- `m < lo` (R285). -/
def State.zoneBelow (s : State) : Bool := s.zoneSpeed.lt ((s.f Reg.zone_threshold_BASE).mul (s.f Reg.zone_gain_TH))

/-- The counter has reached its limit with this tick. -/
def State.reaches (s : State) (r limit : Reg) : Bool := (s.i limit).sle (I32.satInc (s.i r))

/-- The case analysis of `zone_step` on the filtered speed (R285; its table, not 92 D36, log entry 20). -/
def State.zoneMove (s : State) : State :=
  if s.zoneIs .none then
    if s.zoneAbove then (s.setZone .uncertain).set Reg.flux_zone_tm 0 else s
  else if s.zoneIs .uncertain then
    if s.zoneAbove then (s.count1 Reg.flux_zone_tm).when (s.reaches Reg.flux_zone_tm Reg.tm_zone) (·.setZone .high)
    else if s.zoneBelow then (s.setZone .none).set Reg.flux_zone_tm 0
    else s.set Reg.flux_zone_tm 0
  else if s.zoneIs .high then
    if s.zoneBelow then (s.setZone .uncertain).set Reg.flux_zone_tm 0 else s
  else s.poison .illegalCode

/-- `zone_step()` (R285). -/
def State.zoneStep (s : State) : State := if s.zoneIs .locked then s else s.zoneFilter.zoneMove

/-- The back-EMF amplitude is above its threshold (R286). -/
def State.emfAbove (s : State) : Bool :=
  s.flag Reg.tvm_valid && (s.params.norm s.terminal).gt (s.f Reg.detach_threshold_BASE)

/-- The transient counter of DETACHED (R286). -/
def State.detachCount (s : State) : State :=
  if s.emfAbove then s.count1 Reg.flux_detach_tm else s.set Reg.flux_detach_tm 0

/-- The case analysis of `zone_detached` on the counter (R286). -/
def State.zoneDetachedMove (s : State) : State :=
  let n := s.i Reg.flux_detach_tm
  if s.zoneIs .none then s.when ((1 : I32).sle n) (·.setZone .uncertain)
  else if s.zoneIs .uncertain then
    if (s.i Reg.tm_transient).sle n then s.setZone .high else s.when (n == 0) (·.setZone .none)
  else if s.zoneIs .high then s.when (n == 0) (·.setZone .uncertain)
  else s.poison .illegalCode

/-- `zone_detached()` (R286). -/
def State.zoneDetached (s : State) : State :=
  if s.zoneIs .locked then s else s.zoneFilter.detachCount.zoneDetachedMove

/-! ### The lock guard (R288) -/

/-- The bare speed of this tick. -/
def State.bareSpeed (s : State) : F32 :=
  (s.params.rel (s.vec Reg.flux_F) (s.vec Reg.flux_Fb)).div (s.f Reg.dT)

/-- The guard's condition: both speeds past the threshold, with different signs. -/
def State.lockFlipped (s : State) : Bool :=
  (s.f Reg.flux_lpf_bare).abs.gt (s.f Reg.lock_threshold) && (s.f Reg.flux_wS).abs.gt (s.f Reg.lock_threshold)
    && (s.f Reg.flux_lpf_bare).signum != (s.f Reg.flux_wS).signum

/-- `r.F <- (-r.F[0], -r.F[1])`. -/
def State.negVec (s : State) (r : Nat → Reg) : State := s.setVec r ⟨(s.f (r 0)).neg, (s.f (r 1)).neg⟩

/-- The flip by π and the reset of the observer. -/
def State.lockFlip (s : State) : State :=
  (((((((s.negVec Reg.flux_F).setF Reg.flux_wS (s.f Reg.flux_wS).neg).negVec Reg.flux_X).negVec
    Reg.kalman_X).clear covRegs).clear gainRegs).set
    Reg.flux_lpf_bare 0).when (s.zoneIs .high) (·.setZone .uncertain)

/-- The filtered bare speed. -/
def State.bareFilter (s : State) : State :=
  s.setF Reg.flux_lpf_bare (lpf (s.f Reg.flux_lpf_bare) s.bareSpeed (s.f Reg.lock_gain_LP))

/-- The flip, when the guard's condition holds. -/
def State.lockCheck (s : State) : State := s.when s.lockFlipped (·.lockFlip)

/-- `lock_guard()` (R288). -/
def State.lockGuard (s : State) : State :=
  (s.when (s.posF Reg.dT) (fun t => t.bareFilter.lockCheck)).copyVec Reg.flux_Fb Reg.flux_F

/-! ### High-frequency injection (R290, R291) -/

/-- `hfi_demand()` (R290). -/
def State.hfiDemand (s : State) : State :=
  (s.setVec Reg.hfi_wave (s.params.rot (s.vec Reg.hfi_wave) ((F32.twoPi.mul (s.f Reg.hfi_freq)).mul
    (s.f Reg.dT)))).setFlag Reg.hfi_inject true

/-- The current in the HFI frame. -/
def State.hfiCurrent (s : State) : Vec2 := (s.vec Reg.hfi_F).proj s.current

/-- The HFI speed after the demodulated error. -/
def State.hfiSpeed (s : State) : F32 :=
  (s.f Reg.hfi_wS).add ((s.f Reg.hfi_gain_P).mul (s.hfiCurrent.v1.mul (s.f (Reg.hfi_wave 1))))

/-- The position tracking of `hfi_demod` (R291). -/
def State.hfiTrack (s : State) : State :=
  (s.setF Reg.hfi_wS s.hfiSpeed).setVec Reg.hfi_F
    (s.params.rot (s.vec Reg.hfi_F) (s.hfiSpeed.mul (s.f Reg.dT)))

/-- The decision on the magnet's polarity (R291). -/
def State.hfiFlip (s : State) : State :=
  s.when (s.word Reg.lu_tm.num == s.word Reg.tm_hfi_hold.num && (s.f Reg.hfi_pol).lt F32.zero)
    (fun t => (t.negVec Reg.hfi_F).set Reg.hfi_pol 0)

/-- The polarity accumulation for the D current `d` (R291). -/
def State.hfiPolarity (s : State) (d : F32) : State :=
  (s.setF Reg.hfi_pol ((s.f Reg.hfi_pol).add (d.mul d.abs))).hfiFlip

/-- The reference form `FN_HFI` (R291). -/
def State.hfiReference (s : State) : State :=
  s.hfiTrack.when (s.flag Reg.config_HFI_POLARITY) (·.hfiPolarity s.hfiCurrent.v0)

/-- The registers of the demodulation as a supplied `FN_HFI` gives them. -/
def State.hfiTake (s : State) (r : HfiResult) : State :=
  ((s.setF Reg.hfi_wS r.wS).setVec Reg.hfi_F r.F).setF Reg.hfi_pol r.pol

/-- `hfi_demod()`: the reference form, or a supplied one (R291, log entry 7). -/
def State.hfiDemod (s : State) : State :=
  match s.params.hfi with
  | .reference => s.hfiReference
  | .supplied => s.hfiTake (Config.hfiSupplied s.regs)

end Sys2Proof.Machine
end

