-- ==== Sys2Proof/Machine/Sensors.lean ====
section
/-!
DEFINITION. The position-sensor trackers: Hall, ABI encoder, sin/cos resolver (spec/44_sensors.md R320-R333).
-/

namespace Sys2Proof.Machine

/-! ### Hall (R321-R323) -/

/-- The frame of the sector angle of the valid code in `fb_HS` (R321). -/
def State.hallSector (s : State) : Vec2 :=
  let a := s.f (Reg.hall_ST ((s.word Reg.fb_HS.num).toNat - 1))
  ⟨s.params.cos a, s.params.sin a⟩

/-- The tracked frame coasting at its speed (R322, R323). -/
def State.hallCoast (s : State) : Vec2 := s.params.rot (s.vec Reg.hall_F) ((s.f Reg.hall_wS).mul (s.f Reg.dT))

/-- The signed error of the coasting frame from the sector angle (R322). -/
def State.hallError (s : State) : F32 := s.params.rel s.hallSector s.hallCoast

/-- The speed corrected by the error beyond the window (R322). -/
def State.hallSpeed (s : State) : F32 :=
  let k := blendGain (s.f Reg.hall_gain_LO) (s.f Reg.hall_gain_HI) (s.f Reg.hall_blend_TH) (s.f Reg.hall_wS)
  (s.f Reg.hall_wS).add (k.mul (s.hallError.sub (s.hallError.signF.mul s.params.hallErrLimit)))

/-- The frame snapped to the edge of the window around the sector angle (R322). -/
def State.hallSnap (s : State) : Vec2 :=
  s.params.rot s.hallSector (s.hallError.signF.neg.mul s.params.hallErrLimit)

/-- `hall_step()` with a valid code (R322). -/
def State.hallTrack (s : State) : State :=
  if s.hallError.abs.gt s.params.hallErrLimit then
    ((s.set Reg.hall_ERR 0).setF Reg.hall_wS s.hallSpeed).setVec Reg.hall_F s.hallSnap
  else (s.set Reg.hall_ERR 0).setVec Reg.hall_F s.hallCoast

/-- The Hall sensor is disabled and its fault raised (R323). -/
def State.hallFault (s : State) : State := (s.set Reg.config_LU_SENSOR 0).raise .sensorHallFault false

/-- `hall_step()` with an invalid code (R323). -/
def State.hallInvalid (s : State) : State :=
  ((s.count1 Reg.hall_ERR).setVec Reg.hall_F s.hallCoast).when
    (Config.hallInvalidLimit.sle (I32.satInc (s.i Reg.hall_ERR))) (·.hallFault)

/-- `hall_step()` (R321-R323). -/
def State.hallStep (s : State) : State :=
  if hallValid (s.word Reg.fb_HS.num) then s.hallTrack else s.hallInvalid

/-! ### ABI encoder (R326-R329) -/

/-- `ep`, the encoder count: reduced into the revolution for an absolute encoder (30 R143, 44 R326). -/
def State.abiCount (s : State) : Option I32 :=
  if s.flag Reg.config_ABI_ABSOLUTE then I32.mod (s.i Reg.fb_EP) (s.i Reg.eabi_EPPR) else some (s.i Reg.fb_EP)

/-- The shortest way round for an absolute encoder (R326); the doubled delta wraps like every `i32` (40 R171). -/
def shortestWay (d n : I32) : I32 :=
  let d1 := if n.slt (d + d) then d - n else d
  if (d1 + d1).slt (-n) then d1 + n else d1

/-- `d`, the tick delta (R326). -/
def State.abiDelta (s : State) (ep : I32) : I32 :=
  if !s.flag Reg.eabi_init then 0
  else if s.flag Reg.config_ABI_ABSOLUTE then shortestWay (ep - s.i Reg.eabi_EP_prev) (s.i Reg.eabi_EPPR)
  else I32.sext16 (ep - s.i Reg.eabi_EP_prev)

/-- The first sample initializes (R326). -/
def State.abiInit (s : State) (ep : I32) : State :=
  s.when (!s.flag Reg.eabi_init) (fun t =>
    (t.when (s.flag Reg.config_ABI_ABSOLUTE) (·.set Reg.eabi_count ep)).set Reg.eabi_init 1)

/-- `k_e`, electrical revolutions per encoder tick (R326). -/
def State.abiScale (s : State) : F32 :=
  ((s.toF Reg.const_Zp).mul (s.gear Reg.eabi_gear_ZS Reg.eabi_gear_ZQ)).div (s.toF Reg.eabi_EPPR)

/-- `t`, electrical radians per encoder tick (R328). -/
def State.abiTick (s : State) : F32 := F32.twoPi.mul s.abiScale

/-- `abi_speed(d)` (R327). -/
def State.abiSpeed (s : State) (d : I32) : State :=
  s.when (s.posF Reg.dT) (fun t =>
    t.setF Reg.eabi_wS (lpf (s.f Reg.eabi_wS) ((s.abiTick.mul (F32.ofI32 d)).div (s.f Reg.dT)) (s.f Reg.eabi_gain_LP)))

/-- The interpolated angle (R328). -/
def State.abiInterp (s : State) (d : I32) : State :=
  if d = 0 then
    s.setF Reg.eabi_interp (((s.f Reg.eabi_interp).add ((s.f Reg.eabi_wS).mul (s.f Reg.dT))).clamp s.abiTick.neg s.abiTick)
  else s.set Reg.eabi_interp 0

/-- The encoder frame (R328). -/
def State.abiFrame (s : State) : State :=
  let th := ((s.f Reg.eabi_offset).add (s.abiTick.mul (s.toF Reg.eabi_count))).add (s.f Reg.eabi_interp)
  s.setVec Reg.eabi_F ⟨s.params.cos th, s.params.sin th⟩

/-- `abi_location()` (R329). -/
def State.abiLocation (s : State) : State :=
  s.setF Reg.eabi_location
    ((s.abiTick.mul (((s.toF Reg.eabi_revol).mul (s.toF Reg.eabi_EPPR)).add (s.toF Reg.eabi_count))).add
      (s.f Reg.eabi_interp))

/-- The turns that `c` counts contain: `(c - m) / n`, exact (R326, log entry 18). -/
def turnsOf (c m n : I32) : I32 := BitVec.ofInt 32 ((c.toInt - m.toInt) / n.toInt)

/-- The unwrapped count, then speed, interpolation and location (R326-R329); `c` is the count, `m` its remainder. -/
def State.abiUnwrap (s : State) (d c m : I32) : State :=
  ((((((s.set Reg.eabi_revol (s.i Reg.eabi_revol + turnsOf c m (s.i Reg.eabi_EPPR))).set
    Reg.eabi_count m).abiSpeed d).abiInterp d).abiFrame).abiLocation)

/-- `abi_step()` once the count `ep` and its delta `d` are known (R326). -/
def State.abiAdvance (s : State) (d : I32) : State :=
  s.bindOr .modNonPositive (I32.mod (s.i Reg.eabi_count + d) (s.i Reg.eabi_EPPR))
    (fun m => s.abiUnwrap d (s.i Reg.eabi_count + d) m)

/-- `abi_step()` (R326). -/
def State.abiStep (s : State) : State :=
  if s.i Reg.eabi_EPPR = 0 then s
  else
    s.bindOr .modNonPositive s.abiCount
      (fun ep => ((s.abiInit ep).set Reg.eabi_EP_prev ep).abiAdvance (s.abiDelta ep))

/-! ### Sin/cos resolver (R331-R333) -/

/-- One corrected channel: `f0*s + f1*c + f2 + f3*s*c` (R331, the reference form `FN_SINCOS`). -/
def sincosFir (f0 f1 f2 f3 sn cs : F32) : F32 :=
  (((f0.mul sn).add (f1.mul cs)).add f2).add ((f3.mul sn).mul cs)

/-- The corrected pair of the reference form. -/
def State.sincosReference (s : State) : Vec2 :=
  let f := fun i => s.f (Reg.sincos_FIR i)
  ⟨sincosFir (f 0) (f 1) (f 2) (f 6) (s.f Reg.fb_SIN) (s.f Reg.fb_COS),
    sincosFir (f 3) (f 4) (f 5) (f 7) (s.f Reg.fb_SIN) (s.f Reg.fb_COS)⟩

/-- `FN_SINCOS`: the reference form, or a supplied one of the `SINCOS_FIR_N` coefficients (R331, log entry 7). -/
def State.sincosPair (s : State) : Vec2 :=
  match s.params.sincos with
  | .reference => s.sincosReference
  | .supplied =>
    Config.sincosSupplied ((List.range Config.sincosTerms).map (fun i => s.f (Reg.sincos_FIR i))) (s.f Reg.fb_SIN)
      (s.f Reg.fb_COS)

/-- The correction FIR (R331). -/
def State.sincosCorrect (s : State) : State :=
  (s.setF Reg.sincos_S s.sincosPair.v0).setF Reg.sincos_C s.sincosPair.v1

/-- `quadrant(S, C)` (R332). -/
def quadrant (sn cs : F32) : I32 :=
  if sn.ge F32.zero && cs.ge F32.zero then 0 else if sn.ge F32.zero then 1 else if cs.lt F32.zero then 2 else 3

/-- The quadrant of the corrected pair. -/
def State.sincosQuad (s : State) : I32 := quadrant (s.f Reg.sincos_S) (s.f Reg.sincos_C)

/-- `sincos_quadrant()` (R332): only a crossing between quadrants 1 and 2 counts. -/
def State.sincosQuadrant (s : State) : State :=
  let q := s.sincosQuad
  let old := s.i Reg.sincos_quad
  let turned :=
    if s.flag Reg.sincos_init && old == 1 && q == 2 then s.set Reg.sincos_revol (s.i Reg.sincos_revol + 1)
    else if s.flag Reg.sincos_init && old == 2 && q == 1 then s.set Reg.sincos_revol (s.i Reg.sincos_revol - 1)
    else s
  turned.set Reg.sincos_quad q

/-- `th_m`, the resolver angle (R333). -/
def State.sincosMechanical (s : State) : F32 :=
  (s.params.atan2 (s.f Reg.sincos_S) (s.f Reg.sincos_C)).add (s.f (Reg.sincos_FIR 8))

/-- `G` (R333). -/
def State.sincosScale (s : State) : F32 := (s.toF Reg.const_Zp).mul (s.gear Reg.sincos_gear_ZS Reg.sincos_gear_ZQ)

/-- `Fn`, the frame of the electrical angle (R333). -/
def State.sincosFrame (s : State) : Vec2 :=
  let th := s.sincosMechanical.mul s.sincosScale
  ⟨s.params.cos th, s.params.sin th⟩

/-- The filtered speed (R333). -/
def State.sincosSpeed (s : State) : F32 :=
  lpf (s.f Reg.sincos_wS) ((s.params.rel s.sincosFrame (s.vec Reg.sincos_F)).div (s.f Reg.dT)) (s.f Reg.sincos_gain_LP)

/-- `sincos_angle()` (R333). -/
def State.sincosAngle (s : State) : State :=
  (((s.when (s.flag Reg.sincos_init && s.posF Reg.dT) (fun t => t.setF Reg.sincos_wS s.sincosSpeed)).setVec
    Reg.sincos_F s.sincosFrame).setF Reg.sincos_location
    (((F32.twoPi.mul (s.toF Reg.sincos_revol)).add s.sincosMechanical).mul s.sincosScale)).set Reg.sincos_init 1

/-- `sincos_step()` (R331). -/
def State.sincosStep (s : State) : State := s.sincosCorrect.sincosQuadrant.sincosAngle

/-! ### Dispatch (R320) -/

/-- `sensor_trackers()` (R320): each selection is read as its turn comes. -/
def State.sensorTrackers (s : State) : State :=
  let h := s.when (s.sensorIs .hall) (·.hallStep)
  let a := h.when (h.sensorIs .abi || h.locationIs .abi) (·.abiStep)
  a.when (a.sensorIs .sincos || a.locationIs .sincos) (·.sincosStep)

end Sys2Proof.Machine
end

