-- ==== Sys2Proof/Machine/Lookup.lean ====
section
/-!
DEFINITION. The lookup FSM `pm_lu_FSM` (spec/42_lu_fsm.md R230-R246).
-/

namespace Sys2Proof.Machine

/-- `r.flux_ZONE <- NONE if r.flux_ZONE != LOCKED` (R231). -/
def State.dropZone (s : State) : State := s.when (!s.zoneIs .locked) (·.setZone .none)

/-- The estimator outside DETACHED (R231). -/
def State.estimatorRun (s : State) : State :=
  if s.estimatorIs .ortega then s.ortegaStep.zoneStep
  else if s.estimatorIs .kalman then s.kalmanCorrect.zoneStep
  else s.dropZone

/-- `estimator_background()` (R231). -/
def State.estimatorBackground (s : State) : State :=
  (if s.modeIs .detached then s.ortegaStep.zoneDetached else s.estimatorRun).when (!s.estimatorIs .none) (·.lockGuard)

/-! ### The availability predicates (R246) -/

def State.estOk (s : State) : Bool := !s.estimatorIs .none

def State.hallOk (s : State) : Bool := s.sensorIs .hall

def State.abiOk (s : State) : Bool := s.sensorIs .abi && s.pos Reg.eabi_EPPR && s.flag Reg.eabi_init

/-- `config_HFI_WAVETYPE` ≠ NONE. -/
def State.hfiOn (s : State) : Bool := s.word Reg.config_HFI_WAVETYPE.num != 0

def State.hfiOk (s : State) : Bool := s.hfiOn && s.posF Reg.const_Ld && s.posF Reg.const_Lq

def State.forcedOk (s : State) : Bool := s.flag Reg.config_LU_FORCED

def State.eKnown (s : State) : Bool := s.posF Reg.const_E

def State.tvmOk (s : State) : Bool := s.flag Reg.config_TVM

/-! ### The edges (R240-R244) -/

/-- The mode has lasted as long as a timer register says. -/
def State.modeTimeUp (s : State) (limit : Reg) : Bool := (s.i limit).sle (s.i Reg.lu_tm)

/-- Out of DETACHED (R240). -/
def State.edgeDetached (s : State) : Option LuMode :=
  if !s.modeTimeUp Reg.tm_startup then none
  else if s.zoneIs .locked then none
  else if s.zoneIs .high && s.estOk then some .estimate
  else if s.hallOk then some .sensorHall
  else if s.abiOk then some .sensorAbi
  else if s.hfiOk then some .onHfi
  else if s.forcedOk then some .forced
  else none

/-- Out of FORCED (R241). -/
def State.edgeForced (s : State) : Option LuMode :=
  if s.zoneIs .high && s.eKnown && s.estOk then some .estimate
  else if s.modeTimeUp Reg.tm_forced_hold then
    if s.abiOk then some .sensorAbi else if s.hfiOk then some .onHfi else none
  else none

/-- Out of ESTIMATE (R242). -/
def State.edgeEstimate (s : State) : Option LuMode :=
  if s.zoneIs .none || s.zoneIs .uncertain then
    if s.hallOk then some .sensorHall
    else if s.abiOk then some .sensorAbi
    else if s.hfiOk then some .onHfi
    else if s.forcedOk then some .forced
    else if s.tvmOk then some .detached
    else none
  else none

/-- Out of ON_HFI (R243). -/
def State.edgeHfi (s : State) : Option LuMode :=
  if s.zoneIs .high || !s.hfiOn then some .estimate
  else if s.modeTimeUp Reg.tm_hfi_hold && s.abiOk then some .sensorAbi
  else none

/-- Out of SENSOR_HALL and SENSOR_ABI (R244). -/
def State.edgeSensor (s : State) : Option LuMode := if s.zoneIs .high && s.estOk then some .estimate else none

/-- The mode change this step makes, if any. -/
def State.edge (s : State) : Option LuMode :=
  if s.modeIs .detached then s.edgeDetached
  else if s.modeIs .forced then s.edgeForced
  else if s.modeIs .estimate then s.edgeEstimate
  else if s.modeIs .onHfi then s.edgeHfi
  else s.edgeSensor

/-- `DETACH_LOCK` (00 R8): the reference form is `config_TVM = 0` (R240). -/
def State.detachLock (s : State) : Bool :=
  match s.params.detachLock with
  | .reference => !s.tvmOk
  | .supplied => Config.detachLockSupplied s.regs

/-- Whether DETACHED locks now: the startup timer has elapsed, the zone is not locked, and no exit is open (R240). -/
def State.locksNow (s : State) : Bool :=
  s.modeIs .detached && s.modeTimeUp Reg.tm_startup && !s.zoneIs .locked && s.edge.isNone && s.detachLock

/-! ### Mode changes (R239) -/

/-- Item 2: leaving DETACHED. -/
def State.leaveDetached (s : State) : State :=
  (s.emitZ 0).clear [Reg.i_integral_D, Reg.i_integral_Q, Reg.i_track_D, Reg.i_track_Q]

/-- Items 3-5: the actions on entering a mode. -/
def State.enterActions (s : State) (m : LuMode) : State :=
  if m = .detached then (s.emitZ 7).set Reg.flux_detach_tm 0
  else if m = .forced then (s.copyVec Reg.forced_F Reg.lu_F).copy Reg.forced_wS Reg.lu_wS
  else if m = .onHfi then ((s.copyVec Reg.hfi_F Reg.lu_F).copy Reg.hfi_wS Reg.lu_wS).set Reg.hfi_pol 0
  else s

/-- `change_mode(m)`. -/
def State.changeMode (s : State) (m : LuMode) : State :=
  (((s.set Reg.lu_tm 0).when (s.modeIs .detached && m != .detached) (·.leaveDetached)).enterActions m).set
    Reg.lu_mode m.code

/-- `transition()`: at most one mode change (R240-R245). -/
def State.transition (s : State) : State :=
  match s.edge with
  | some m => s.changeMode m
  | none => s.when s.locksNow (·.setZone .locked)

/-! ### Candidate and blend (R232, R234) -/

/-- Where a candidate frame and speed are held. -/
structure Candidate where
  frame : Nat → Reg
  speed : Reg

/-- `candidate()` (R232). -/
def State.candidate (s : State) : Option Candidate :=
  if s.modeIs .detached || s.modeIs .estimate then some ⟨Reg.flux_F, Reg.flux_wS⟩
  else if s.modeIs .forced then some ⟨Reg.forced_F, Reg.forced_wS⟩
  else if s.modeIs .onHfi then some ⟨Reg.hfi_F, Reg.hfi_wS⟩
  else if s.modeIs .sensorHall then some ⟨Reg.hall_F, Reg.hall_wS⟩
  else if s.modeIs .sensorAbi then some ⟨Reg.eabi_F, Reg.eabi_wS⟩
  else none

/-- `blend(Fc, wc)` (R234). -/
def State.blend (s : State) (c : Candidate) : State :=
  let e := s.params.rel (s.vec c.frame) (s.vec Reg.lu_F)
  let lim := (s.f Reg.lu_rate).mul (s.f Reg.dT)
  (if e.abs.le lim then s.copyVec Reg.lu_F c.frame
    else s.setVec Reg.lu_F (s.params.rot (s.vec Reg.lu_F) (e.signF.mul lim))).copy Reg.lu_wS c.speed

/-! ### Revolutions, location, load torque (R235-R237) -/

/-- The wrap of this step: +1, −1 or 0 (R235). -/
def State.wrapStep (s : State) : I32 :=
  let p := s.vec Reg.lu_Fp
  let f := s.vec Reg.lu_F
  if p.v0.lt F32.zero && f.v0.lt F32.zero then
    if p.v1.ge F32.zero && f.v1.lt F32.zero then 1
    else if p.v1.lt F32.zero && f.v1.ge F32.zero then -1
    else 0
  else 0

/-- `abs(d)` of an `i32`. -/
def I32.abs (d : I32) : I32 := if d.slt 0 then -d else d

/-- `d`, the revolutions since the last total update. -/
def State.revolDelta (s : State) : I32 := s.i Reg.lu_revol - s.i Reg.lu_revob

/-- `d` is past the guard (R235). -/
def State.revolPast (s : State) : Bool :=
  Config.revolGuard.slt s.revolDelta || s.revolDelta.slt (-Config.revolGuard)

/-- The total-revolution counter (R235). -/
def State.totalRevolutions (s : State) : State :=
  s.when s.revolPast (fun t =>
    (t.set Reg.lu_total_revol (s.i Reg.lu_total_revol + I32.abs s.revolDelta)).copy Reg.lu_revob Reg.lu_revol)

/-- `revolutions()` (R235). -/
def State.revolutions (s : State) : State := (s.set Reg.lu_revol (s.i Reg.lu_revol + s.wrapStep)).totalRevolutions

/-- The location of the frame angle and the revolutions (R236). -/
def State.fluxLocation (s : State) : F32 :=
  ((s.toF Reg.lu_revol).mul F32.twoPi).add (s.params.atan2 (s.f (Reg.lu_F 1)) (s.f (Reg.lu_F 0)))

/-- `location()` (R236). -/
def State.location (s : State) : State :=
  if s.locationIs .flux then s.setF Reg.lu_location s.fluxLocation
  else if s.locationIs .abi then s.copy Reg.lu_location Reg.eabi_location
  else if s.locationIs .sincos then s.copy Reg.lu_location Reg.sincos_location
  else s.poison .illegalCode

/-- The measured load torque, before the filter (R237). -/
def State.loadMeasured (s : State) : F32 :=
  let a := (((s.f Reg.lu_wS).sub (s.f Reg.lu_wS_prev)).div (s.f Reg.dT)).div (s.toF Reg.const_Zp)
  (s.torque (s.f Reg.lu_iD) (s.f Reg.lu_iQ)).sub ((s.f Reg.const_Ja).mul a)

/-- The torque at the maximal current, signed by the forced direction (R237). -/
def State.loadForced (s : State) : F32 :=
  let m := s.torque F32.zero (s.f Reg.i_maximal)
  if (s.f Reg.forced_wS).ge F32.zero then m else m.neg

/-- `load_torque()` (R237). -/
def State.loadTorque (s : State) : State :=
  if s.modeIs .forced then s.setF Reg.lu_mq_load s.loadForced
  else if s.pos Reg.const_Zp && s.posF Reg.dT then
    s.setF Reg.lu_mq_load (lpf (s.f Reg.lu_mq_load) s.loadMeasured (s.f Reg.lu_gain_mq_LP))
  else s

/-! ### The forced ramp (R238) -/

/-- The ramp speed after this step. -/
def State.forcedSpeed (s : State) : F32 :=
  let dir := if s.driveIs .current then (s.f Reg.i_setpoint_current).signF else (s.f Reg.s_setpoint_speed).signF
  slew (s.f Reg.forced_wS) (dir.mul (s.f Reg.forced_maximal)) ((s.f Reg.forced_accel).mul (s.f Reg.dT))

/-- `forced_update()`. -/
def State.forcedUpdate (s : State) : State :=
  (s.setF Reg.forced_wS s.forcedSpeed).setVec Reg.forced_F
    (s.params.rot (s.vec Reg.forced_F) (s.forcedSpeed.mul (s.f Reg.dT)))

/-! ### The step (R230) -/

/-- The part of the step before `transition()`. -/
def State.luUpdate (s : State) : State :=
  let t := ((s.copyVec Reg.lu_Fp Reg.lu_F).copy Reg.lu_wS_prev Reg.lu_wS).estimatorBackground.sensorTrackers
  (t.when (s.modeIs .onHfi) (·.hfiDemod.hfiDemand)).when (s.modeIs .forced) (·.forcedUpdate)

/-- The part of the step after `transition()`, in the mode it left. -/
def State.luFollow (s : State) : State :=
  s.bindOr .illegalCode s.candidate (fun c => (s.blend c).revolutions.location.loadTorque)

/-- `transition()` and what follows; a step that enters a mode is not counted in it. -/
def State.luFinish (s : State) : State := s.transition.luFollow.when s.edge.isNone (·.count1 Reg.lu_tm)

/-- `lu_step()` (R230, R245). -/
def State.luStep (s : State) : State :=
  if s.modeIs .sensorSincos then s.poison .sincosLookupStep else s.luUpdate.luFinish

end Sys2Proof.Machine
end

