-- ==== Sys2Proof/Machine/Loops.lean ====
section
/-!
DEFINITION. The control loops: current, speed, location (spec/45_loops.md R350-R381). A pair of D/Q values is a `Vec2`.
-/

namespace Sys2Proof.Machine

/-- The last-issued rotating-frame voltage. -/
def State.issuedDQ (s : State) : Vec2 := ⟨s.f Reg.vsi_D, s.f Reg.vsi_Q⟩

/-! ### Power (R362) -/

/-- The instantaneous electrical power. -/
def State.drainPower (s : State) : F32 :=
  F32.oneAndHalf.mul (((s.f Reg.vsi_D).mul (s.f Reg.lu_iD)).add ((s.f Reg.vsi_Q).mul (s.f Reg.lu_iQ)))

/-- The filtered power. -/
def State.lpfPower (s : State) : F32 := lpf (s.f Reg.watt_lpf_wP) s.drainPower (s.f Reg.watt_gain_LP)

/-- The filtered bus voltage. -/
def State.lpfVoltage (s : State) : F32 := lpf (s.f Reg.watt_lpf_uS) (s.f Reg.fb_uS) (s.f Reg.watt_gain_LP)

/-- The bus current from the filtered power and voltage. -/
def State.busCurrent (s : State) : F32 :=
  if s.lpfVoltage.gt F32.zero then s.lpfPower.div s.lpfVoltage else F32.zero

/-- `power()`. -/
def State.power (s : State) : State :=
  (((s.setF Reg.watt_drain_wP s.drainPower).setF Reg.watt_lpf_wP s.lpfPower).setF Reg.watt_lpf_uS
    s.lpfVoltage).setF Reg.watt_lpf_wA s.busCurrent

/-! ### Setpoints and policy (R351-R354) -/

/-- `setpoints()` (R351). -/
def State.setpoints (s : State) : Vec2 :=
  if s.modeIs .forced then ⟨s.f Reg.forced_hold_D, F32.zero⟩
  else if s.driveIs .current then ⟨F32.zero, s.f Reg.i_setpoint_current⟩
  else ⟨F32.zero, s.f Reg.s_iQ⟩

/-- The holding brake (R352). -/
def State.brake (s : State) (q : F32) : F32 :=
  if s.driveIs .current && s.flag Reg.config_HOLDING_BRAKE && q.eq F32.zero then
    let b := (s.f Reg.brake_gain).neg.mul (s.f Reg.lu_wS)
    if s.posF Reg.brake_maximal then b.clamp (s.f Reg.brake_maximal).neg (s.f Reg.brake_maximal) else b
  else q

/-- The Q current allowed past the speed limit (R352). -/
def State.speedLimitQ (s : State) : F32 :=
  F32.zero.max ((s.f Reg.i_maximal).sub ((s.f Reg.s_limit_gain).mul ((s.f Reg.lu_wS).abs.sub (s.f Reg.s_limit))))

/-- The speed limit in current mode (R352). -/
def State.speedLimit (s : State) (q : F32) : F32 :=
  if s.driveIs .current && s.flag Reg.config_SPEED_LIMITED && (s.f Reg.lu_wS).abs.gt (s.f Reg.s_limit) then
    if s.posF Reg.lu_wS then q.min s.speedLimitQ else q.max s.speedLimitQ.neg
  else q

/-- `brake_and_limit(spQ)` (R352). -/
def State.brakeAndLimit (s : State) (q : F32) : F32 := s.speedLimit (s.brake q)

/-- The weakening integrator after this tick (R353). -/
def State.weakValue (s : State) : F32 :=
  let lim := ((s.f Reg.i_headroom).mul s.clampRatio).mul (s.f Reg.fb_uS)
  let e := lim.sub (s.params.norm s.issuedDQ)
  ((s.f Reg.weak_D).add (((s.f Reg.weak_gain_EU).mul e).mul (s.f Reg.dT))).clamp (s.f Reg.weak_maximal).neg F32.zero

/-- `weakening()` (R353). -/
def State.weakening (s : State) : State :=
  if !s.flag Reg.config_WEAKENING || (s.f Reg.const_E).eq F32.zero then s.set Reg.weak_D 0
  else s.setF Reg.weak_D s.weakValue

/-- `Δ = const_Lq − const_Ld` (R354). -/
def State.saliency (s : State) : F32 := (s.f Reg.const_Lq).sub (s.f Reg.const_Ld)

/-- The MTPA current for a Q current, the reference form `FN_MTPA` (R354). -/
def mtpa (p : Params) (E dL q : F32) : F32 :=
  (E.sub (p.sqrt ((E.mul E).add ((((F32.four.mul dL).mul dL).mul q).mul q)))).div (F32.two.mul dL)

/-- `FN_MTPA`: the reference form, or a supplied one (R354, log entry 7). -/
def State.mtpaCurrent (s : State) (q : F32) : F32 :=
  match s.params.mtpa with
  | .reference => mtpa s.params (s.f Reg.const_E) s.saliency q
  | .supplied => Config.mtpaSupplied s.regs q

/-- `d_policy(spD, spQ)` (R354). -/
def State.dPolicy (s : State) (sp : Vec2) : F32 :=
  let dm :=
    if s.flag Reg.config_MTPA && s.saliency.gt F32.zero && s.posF Reg.const_E then
      s.mtpaCurrent sp.v1
    else F32.zero
  (sp.v0.min dm).min (s.f Reg.weak_D)

/-! ### Clamps on the current (R355, R356) -/

/-- `current_clamp(spD, spQ)` (R355). -/
def State.currentClamp (s : State) (sp : Vec2) : Vec2 :=
  let I := s.f Reg.i_maximal
  let d := sp.v0.clamp I.neg I
  let qmax := s.params.sqrt (((I.mul I).sub (d.mul d)).max F32.zero)
  let q := sp.v1.clamp qmax.neg qmax
  if s.posF Reg.i_reverse && (q.mul (s.f Reg.lu_wS)).lt F32.zero then
    ⟨d, q.clamp (s.f Reg.i_reverse).neg (s.f Reg.i_reverse)⟩
  else ⟨d, q⟩

/-- `mincap(a, b)` (R356). -/
def mincap (a b : F32) : F32 :=
  if a.gt F32.zero then (if b.gt F32.zero && b.lt a then b else a)
  else if b.gt F32.zero then b else F32.zero

/-- The power cap of one direction (R356). -/
def State.powerCap (s : State) (wP wA : Reg) : F32 := mincap (s.f wP) ((s.f wA).mul (s.f Reg.watt_lpf_uS))

/-- The setpoint scaled to a cap: D first, then Q gets the rest (R356). -/
def scaleToCap (sp : Vec2) (pD pQ cap : F32) (beyond : Bool) : Vec2 :=
  if beyond then ⟨sp.v0.mul (cap.div pD), F32.zero⟩ else ⟨sp.v0, sp.v1.mul ((cap.sub pD).div pQ)⟩

/-- `power_clamp(spD, spQ)` (R356). -/
def State.powerClamp (s : State) (sp : Vec2) : Vec2 :=
  let capF := s.powerCap Reg.watt_wP_maximal Reg.watt_wA_maximal
  let capR := s.powerCap Reg.watt_wP_reverse Reg.watt_wA_reverse
  let pD := (F32.oneAndHalf.mul (s.f Reg.vsi_D)).mul sp.v0
  let pQ := (F32.oneAndHalf.mul (s.f Reg.vsi_Q)).mul sp.v1
  let p := pD.add pQ
  if capF.gt F32.zero && p.gt capF then scaleToCap sp pD pQ capF (pD.gt capF)
  else if capR.gt F32.zero && p.lt capR.neg then scaleToCap sp pD pQ capR.neg (pD.lt capR.neg)
  else sp

/-- The constrained setpoints of the current loop, once the power and the weakening current are known (R350). -/
def State.targets (s : State) : Vec2 :=
  let sp := s.setpoints
  if s.modeIs .forced then s.powerClamp (s.currentClamp sp)
  else
    let q := s.brakeAndLimit sp.v1
    s.powerClamp (s.currentClamp ⟨s.dPolicy ⟨sp.v0, q⟩, q⟩)

/-- `r.i_sp_D <- spD ; r.i_sp_Q <- spQ` (R350). -/
def State.storeTargets (s : State) : State := (s.setF Reg.i_sp_D s.targets.v0).setF Reg.i_sp_Q s.targets.v1

/-! ### Tracking and regulation (R357-R361) -/

/-- `track()` (R357): each axis moves to its setpoint by at most the slew rate of a tick, which is what R363 says of
`i_track`. -/
def State.track (s : State) : State :=
  if (s.f Reg.i_slew_rate).eq F32.zero then (s.copy Reg.i_track_D Reg.i_sp_D).copy Reg.i_track_Q Reg.i_sp_Q
  else
    let r := (s.f Reg.i_slew_rate).mul (s.f Reg.dT)
    (s.setF Reg.i_track_D (slew (s.f Reg.i_track_D) (s.f Reg.i_sp_D) r)).setF Reg.i_track_Q
      (slew (s.f Reg.i_track_Q) (s.f Reg.i_sp_Q) r)

/-- The current errors `eD`, `eQ` (R358). -/
def State.trackError (s : State) : Vec2 :=
  ⟨(s.f Reg.i_track_D).sub (s.f Reg.lu_iD), (s.f Reg.i_track_Q).sub (s.f Reg.lu_iQ)⟩

/-- `lim`, the anti-windup bound (R359, 47 R444). -/
def State.windupLimit (s : State) : F32 := (s.f Reg.i_headroom).mul (s.f Reg.fb_uS)

/-- One integral after this tick, clamped (R358, R359). -/
def State.integral (s : State) (r : Reg) (e : F32) : F32 :=
  ((s.f r).add ((s.f Reg.i_gain_I).mul e)).clamp s.windupLimit.neg s.windupLimit

/-- The integrals, kept within `±i_headroom·fb_uS` (R358, R359, R363). -/
def State.integrate (s : State) : State :=
  (s.setF Reg.i_integral_D (s.integral Reg.i_integral_D s.trackError.v0)).setF Reg.i_integral_Q
    (s.integral Reg.i_integral_Q s.trackError.v1)

/-- The feed-forward voltages (R358). -/
def State.feedForward (s : State) : Vec2 :=
  let tD := s.f Reg.i_track_D
  let tQ := s.f Reg.i_track_Q
  let w := s.f Reg.lu_wS
  ⟨((s.f Reg.const_R).mul tD).sub ((w.mul (s.f Reg.const_Lq)).mul tQ),
    ((s.f Reg.const_R).mul tQ).add (w.mul (((s.f Reg.const_Ld).mul tD).add (s.f Reg.const_E)))⟩

/-- `uD`, `uQ` of `pi()`, from the integrals already updated (R358). -/
def State.piVoltage (s : State) : Vec2 :=
  ⟨(((s.f Reg.i_gain_P).mul s.trackError.v0).add (s.f Reg.i_integral_D)).add s.feedForward.v0,
    (((s.f Reg.i_gain_P).mul s.trackError.v1).add (s.f Reg.i_integral_Q)).add s.feedForward.v1⟩

/-- The vector part of `output_clamp` (R360). -/
def State.circleClampDQ (s : State) (u : Vec2) : Vec2 :=
  let umax := s.clampRatio.mul (s.f Reg.fb_uS)
  let m := s.params.norm u
  if m.gt umax then
    if umax.gt F32.zero then ⟨(u.v0.mul umax).div m, (u.v1.mul umax).div m⟩ else Vec2.zero
  else u

/-- The Q part of `output_clamp` (R360). -/
def State.clampQ (s : State) (q : F32) : F32 :=
  let q1 := if s.posF Reg.v_maximal then q.min (s.f Reg.v_maximal) else q
  if s.posF Reg.v_reverse then q1.max (s.f Reg.v_reverse).neg else q1

/-- `output_clamp(uD, uQ)` (R360). -/
def State.outputClamp (s : State) (u : Vec2) : Vec2 := ⟨(s.circleClampDQ u).v0, s.clampQ (s.circleClampDQ u).v1⟩

/-- `hfi_inject(uD)`, the voltage (R361). -/
def State.injected (s : State) (d : F32) : F32 :=
  if s.flag Reg.hfi_inject then d.add ((s.f Reg.hfi_amplitude).mul (s.f (Reg.hfi_wave 0))) else d

/-- The command to `pm_voltage`, and the injection flag consumed (R350, R361). -/
def State.command (s : State) : State :=
  let u := s.outputClamp s.piVoltage
  ((s.when (s.flag Reg.hfi_inject) (·.set Reg.hfi_inject 0)).setF Reg.vsi_D (s.injected u.v0)).setF Reg.vsi_Q u.v1

/-- `current_loop()` (R350). -/
def State.currentLoop (s : State) : State :=
  ((((s.power.when (!s.modeIs .forced) (·.weakening)).storeTargets).track).integrate).command

/-! ### Speed loop (R370-R372) -/

/-- `forced_bypass()` (R372). -/
def State.forcedBypass (s : State) : State := (s.copy Reg.s_track Reg.forced_wS).set Reg.s_iQ 0

/-- A speed limited to `s_maximal`, 0 meaning no limit. -/
def State.limitSpeed (s : State) (w : F32) : F32 :=
  if s.posF Reg.s_maximal then w.clamp (s.f Reg.s_maximal).neg (s.f Reg.s_maximal) else w

/-- The ramp of SPEED drive (R370). -/
def State.speedRamp (s : State) : State :=
  let sp := s.limitSpeed (s.f Reg.s_setpoint_speed)
  if (s.f Reg.s_accel).eq F32.zero then s.setF Reg.s_track sp
  else s.setF Reg.s_track (slew (s.f Reg.s_track) sp ((s.f Reg.s_accel).mul (s.f Reg.dT)))

/-- `speed_reg()` (R371). -/
def State.speedReg (s : State) : State :=
  let kt := (F32.oneAndHalf.mul (s.toF Reg.const_Zp)).mul (s.f Reg.const_E)
  let ff := if kt.gt F32.zero then (s.f Reg.lu_mq_load).div kt else F32.zero
  s.setF Reg.s_iQ (((s.f Reg.s_gain_P).mul ((s.f Reg.s_track).sub (s.f Reg.lu_wS))).add ff)

/-- `speed_loop()` (R370). -/
def State.speedLoop (s : State) : State :=
  if s.modeIs .forced then s.forcedBypass else (s.when (s.driveIs .speed) (·.speedRamp)).speedReg

/-! ### Location loop (R380, R381) -/

/-- The setpoint ramp (R380). -/
def State.locationRamp (s : State) : State :=
  if (s.f Reg.x_setpoint_speed).eq F32.zero then s.copy Reg.x_track Reg.x_setpoint_location
  else s.setF Reg.x_track
    (slew (s.f Reg.x_track) (s.f Reg.x_setpoint_location) ((s.f Reg.x_setpoint_speed).mul (s.f Reg.dT)))

/-- The speed command of the profile, before its limit (R381). -/
def State.profileSpeed (s : State) : F32 :=
  let e := (s.f Reg.x_track).sub (s.f Reg.lu_location)
  let q := if (s.f Reg.x_deadzone).eq F32.zero then F32.one else (e.abs.div (s.f Reg.x_deadzone)).min F32.one
  (((s.f Reg.x_gain_N).mul e).mul (F32.one.sub q)).add
    (((e.signF.mul (s.f Reg.x_gain_F)).mul (s.params.sqrt e.abs)).mul q)

/-- `location_profile()` (R381). -/
def State.locationProfile (s : State) : State := s.setF Reg.s_track (s.limitSpeed s.profileSpeed)

/-- `location_loop()` (R380). -/
def State.locationLoop (s : State) : State := s.locationRamp.locationProfile

end Sys2Proof.Machine
end

