-- ==== Sys2Proof/Machine/Voltage.lean ====
section
/-!
DEFINITION. The commutation mapping `pm_voltage` (spec/46_voltage.md R400-R405, R407): clamps, offset, ticks, minimum pulse,
bootstrap retention and the emission of the duty. `emit_duty`, `emit_z` and `classify` are in Machine/Ops.lean.
-/

namespace Sys2Proof.Machine

/-- A voltage with the mark that a clamp acted. -/
structure Clamped where
  u : Vec2
  lim : Bool
  deriving DecidableEq, Repr

/-- Duty ratios with the mark that a clamp acted. -/
structure Ratios where
  d : Legs F32
  lim : Bool
  deriving DecidableEq, Repr

/-- `rmax`, the circle radius (R403). -/
def State.circleRadius (s : State) : F32 := s.clampRatio.mul (s.f Reg.fb_uS)

/-- `circular_clamp(uX, uY)` (R403). -/
def State.circularClamp (s : State) (u : Vec2) : Clamped :=
  let m := s.params.norm u
  if s.flag Reg.config_VSI_CIRCULAR && m.gt s.circleRadius then
    ⟨⟨(u.v0.mul s.circleRadius).div m, (u.v1.mul s.circleRadius).div m⟩, true⟩
  else ⟨u, false⟩

/-- `phase_ratios(uX, uY)` (R402). -/
def State.phaseRatios (s : State) (u : Vec2) : Legs F32 :=
  let v := if s.threePhase then iclarke3 u else iclarke2 u
  ⟨v.a.div (s.f Reg.fb_uS), v.b.div (s.f Reg.fb_uS), v.c.div (s.f Reg.fb_uS)⟩

/-- The largest of three ratios; which of two equal zeros it is reaches no register (log entry 10). -/
def maxOf3 (d : Legs F32) : F32 :=
  let ab := if d.a.lt d.b then d.b else d.a
  if ab.lt d.c then d.c else ab

/-- The smallest of three ratios. -/
def minOf3 (d : Legs F32) : F32 :=
  let ab := if d.b.lt d.a then d.b else d.a
  if d.c.lt ab then d.c else ab

/-- `linear_clamp(d, lim)` (R403). -/
def linearClamp (r : Ratios) : Ratios :=
  let span := (maxOf3 r.d).sub (minOf3 r.d)
  if span.gt F32.one then ⟨⟨r.d.a.div span, r.d.b.div span, r.d.c.div span⟩, true⟩ else r

/-- The injection offset: midpoint-centred or min-anchored (R403). -/
def State.offsetOf (s : State) (d : Legs F32) : F32 :=
  if s.flag Reg.config_VSI_PRECISE then F32.half.sub (((maxOf3 d).add (minOf3 d)).div F32.two) else (minOf3 d).neg

/-- `offset(d)` (R403). -/
def State.offset (s : State) (d : Legs F32) : Legs F32 :=
  ⟨d.a.add (s.offsetOf d), d.b.add (s.offsetOf d), d.c.add (s.offsetOf d)⟩

/-- One leg of `ticks(d)`: nearest, within `[0, res]` (R403). -/
def tickOf (Rf d : F32) : Option I32 := (((d.mul Rf).add F32.half).clamp F32.zero Rf).floorI32

/-- `ticks(d)` (R403); no value where `floor_i32` has none. -/
def State.ticks (s : State) (d : Legs F32) : Option (Legs I32) :=
  let Rf := s.toF Reg.pwm_resolution
  match tickOf Rf d.a, tickOf Rf d.b, tickOf Rf d.c with
  | some a, some b, some c => some ⟨a, b, c⟩
  | _, _, _ => none

/-- `limiter(lim)` (R403). -/
def State.limiter (s : State) (lim : Bool) : State :=
  if lim then (s.setFlag Reg.vsi_lim true).count1 Reg.vsi_lim_tm
  else (s.setFlag Reg.vsi_lim false).set Reg.vsi_lim_tm 0

/-! ### The minimum pulse (R404), in `i32` arithmetic (40 R171) -/

/-- The sampling window `[lo, hi]`. -/
structure PulseWindow where
  lo : I32
  hi : I32
  deriving DecidableEq, Repr

/-- `lo = mp`, `hi = res − max(mp, cz)` or, for LOWSIDE, `res − max(mp, cz, 1)`. -/
def pulseWindow (lowside : Bool) (res mp cz : I32) : PulseWindow :=
  ⟨mp, res - (if lowside then I32.max (I32.max mp cz) 1 else I32.max mp cz)⟩

/-- `in(v)`. -/
def PulseWindow.has (w : PulseWindow) (v : I32) : Bool := w.lo.sle v && v.sle w.hi

/-- At least two legs are in the window. -/
def PulseWindow.hasTwo (w : PulseWindow) (d : Legs I32) : Bool :=
  (w.has d.a && w.has d.b) || (w.has d.a && w.has d.c) || (w.has d.b && w.has d.c)

/-- Three counts in ascending order. -/
def sort3 (d : Legs I32) : Legs I32 :=
  ⟨I32.min (I32.min d.a d.b) d.c, I32.max (I32.min d.a d.b) (I32.min (I32.max d.a d.b) d.c),
    I32.max (I32.max d.a d.b) d.c⟩

/-- The smallest shift that puts an adjacent pair into the window, if the pair fits; no pair fits a window with `hi < lo`
(R404's corner case, log entry 18). -/
def PulseWindow.pairShift (w : PulseWindow) (p q : I32) : Option I32 :=
  if w.lo.sle w.hi && (q - p).sle (w.hi - w.lo) then some (I32.clamp 0 (w.lo - p) (w.hi - q)) else none

/-- The common shift `s`: the smaller of the two pairs' shifts, the lower pair on a tie. -/
def PulseWindow.shift (w : PulseWindow) (d : Legs I32) : I32 :=
  if w.hasTwo d then 0
  else
    match w.pairShift (sort3 d).a (sort3 d).b, w.pairShift (sort3 d).b (sort3 d).c with
    | none, none => 0
    | some x, none => x
    | none, some y => y
    | some x, some y => if y.toInt.natAbs < x.toInt.natAbs then y else x

/-- No pulse narrower than `mp`. -/
def snapPulse (res mp v : I32) : I32 :=
  let v' := if (0 : I32).slt v && v.slt mp then 0 else v
  if (res - mp).slt v' && v'.slt res then res else v'

/-- One leg after the common shift. -/
def shiftLeg (res mp s v : I32) : I32 := snapPulse res mp (I32.clamp (v + s) 0 res)

/-- `minimal_pulse_shift(DC)` (R404). -/
def pulseShift (lowside : Bool) (res mp cz : I32) (d : Legs I32) : Legs I32 :=
  if mp = 0 ∧ cz = 0 then d
  else
    let s := (pulseWindow lowside res mp cz).shift d
    ⟨shiftLeg res mp s d.a, shiftLeg res mp s d.b, shiftLeg res mp s d.c⟩

/-- `minimal_pulse_shift` on the machine's registers. -/
def State.minimalPulse (s : State) (d : Legs I32) : Legs I32 :=
  pulseShift s.lowside (s.i Reg.pwm_resolution) (s.i Reg.minimal_pulse) (s.i Reg.clearance_zone) d

/-! ### Bootstrap retention (R405) -/

/-- `top`. -/
def State.rechargeTop (s : State) : I32 := s.i Reg.pwm_resolution - I32.max (s.i Reg.minimal_pulse) 1

/-- The duty of leg `i` after `bootstrap`: lowered while the forced recharge lasts. -/
def State.bootDuty (s : State) (i : Nat) (v : I32) : I32 :=
  if s.pos (Reg.vsi_rch i) then I32.min v s.rechargeTop else v

/-- The counters of leg `i` for its duty `v` before `bootstrap`. -/
def State.bootLeg (s : State) (i : Nat) (v : I32) : State :=
  if s.pos (Reg.vsi_rch i) then
    (s.set (Reg.vsi_rch i) (s.i (Reg.vsi_rch i) - 1)).set (Reg.vsi_bst i) 0
  else if s.pos Reg.tm_bootstrap && v == s.i Reg.pwm_resolution then
    if (s.i Reg.tm_bootstrap).slt (I32.satInc (s.i (Reg.vsi_bst i))) then
      (s.set (Reg.vsi_rch i) (s.i Reg.tm_recharge)).set (Reg.vsi_bst i) 0
    else s.count1 (Reg.vsi_bst i)
  else s.set (Reg.vsi_bst i) 0

/-- The duties after `bootstrap(DC)` (R405). -/
def State.bootDuties (s : State) (d : Legs I32) : Legs I32 := ⟨s.bootDuty 0 d.a, s.bootDuty 1 d.b, s.bootDuty 2 d.c⟩

/-- The counters after `bootstrap(DC)` (R405). -/
def State.bootstrap (s : State) (d : Legs I32) : State := ((s.bootLeg 0 d.a).bootLeg 1 d.b).bootLeg 2 d.c

/-! ### Entry points (R400, R407) -/

/-- The issued voltage in both frames (R407). -/
def State.storeVoltage (s : State) (u F : Vec2) : State :=
  (((s.setF Reg.vsi_X u.v0).setF Reg.vsi_Y u.v1).setF Reg.vsi_D (F.proj u).v0).setF Reg.vsi_Q (F.proj u).v1

/-- `emit(DC, uX, uY, F)` (R407). -/
def State.emit (s : State) (d : Legs I32) (u F : Vec2) : State := (s.emitDuty d).storeVoltage u F

/-- The output with no bus voltage (R400). -/
def State.noBus (s : State) : State :=
  (s.emitDuty ⟨0, 0, 0⟩).clear [Reg.vsi_X, Reg.vsi_Y, Reg.vsi_lim, Reg.vsi_lim_tm, Reg.vsi_D, Reg.vsi_Q]

/-- The duty ratios after the offset, with the limiter mark (R402, R403). -/
def State.ratios (s : State) (c : Clamped) : Ratios :=
  let r := linearClamp ⟨s.phaseRatios c.u, c.lim⟩
  ⟨s.offset r.d, r.lim⟩

/-- From the counts of `ticks` to the emission. -/
def State.issue (s : State) (d : Legs I32) (c : Clamped) (lim : Bool) (F : Vec2) : State :=
  let m := s.minimalPulse d
  ((s.bootstrap m).limiter lim).emit (s.bootDuties m) c.u F

/-- `pm_voltage_core(uX, uY, F)` (R400). -/
def State.pmVoltage (s : State) (u F : Vec2) : State :=
  if !u.isFinite then s.poison .nonFiniteVoltage
  else if !(s.posF Reg.fb_uS) then s.noBus
  else
    let c := s.circularClamp u
    let r := s.ratios c
    s.bindOr .floorDomain (s.ticks r.d) (fun d => s.issue d c r.lim F)

/-- `pm_voltage_dq(uD, uQ, F)` (R400, R401). -/
def State.pmVoltageDQ (s : State) (u F : Vec2) : State := s.pmVoltage (F.unproj u) F

/-- `pm_voltage_xy(uX, uY)` (R400). -/
def State.pmVoltageXY (s : State) (u : Vec2) : State := s.pmVoltage u (s.vec Reg.lu_F)

end Sys2Proof.Machine
end

