-- ==== Sys2Proof/Machine/Procedures.lean ====
section
/-!
DEFINITION. The micro-programs of the command FSM (spec/47_command_fsm.md R440-R453): the reference forms of their
configuration functions, and the supplied ones (log entry 7). A phase number a state has no phase for does nothing (log entry 11).
-/

namespace Sys2Proof.Machine

/-! ### Settle and accumulate stages (R453) -/

/-- A `control()`: it goes on with its second argument unless it raised a fault. -/
abbrev Control := State → (State → State) → State

/-- The settle stage, which arms phase `A`. -/
def State.settle (s : State) (control : Control) (A : I32) : State :=
  control s (fun t => t.countThen (fun u => u.nextPhase A (u.i Reg.tm_probe)))

/-- Whether the accumulate stage takes a sample in this tick. -/
def State.sampling (s : State) : Bool := (s.i Reg.tm_value).slt (s.i Reg.tm_end)

/-- The accumulate stage: a sample while `tm_value < tm_end`, then the control, then the count. -/
def State.accumulate (s : State) (control : Control) (sample finish : State → State) : State :=
  control (s.when s.sampling sample) (fun t => t.countThen finish)

/-- A `control()` written "nothing". -/
def controlNothing : Control := fun s k => k s

/-- `r.fsm_acc[i..j] <- 0` for a list of indices. -/
def State.clearAcc (s : State) (idx : List Nat) : State := s.clear (idx.map Reg.fsm_acc)

/-- `r.fsm_acc[i] <- r.fsm_acc[i] + v`. -/
def State.addAcc (s : State) (i : Nat) (v : F32) : State := s.setF (Reg.fsm_acc i) ((s.f (Reg.fsm_acc i)).add v)

/-- The pair `(r.fsm_acc[i], r.fsm_acc[i+1])`. -/
def State.accPair (s : State) (i : Nat) : Vec2 := ⟨s.f (Reg.fsm_acc i), s.f (Reg.fsm_acc (i + 1))⟩

/-- Writing the pair `(r.fsm_acc[i], r.fsm_acc[i+1])`. -/
def State.setAccPair (s : State) (i : Nat) (v : Vec2) : State :=
  (s.setF (Reg.fsm_acc i) v.v0).setF (Reg.fsm_acc (i + 1)) v.v1

/-- One DFT step into the pair at `i` with the excitation phasor in `fsm_acc[0..1]` (40 R186). -/
def State.dftAcc (s : State) (i : Nat) (x : F32) : State :=
  s.setAccPair i (dftStep (s.accPair i) x (s.accPair 0).v0 (s.accPair 0).v1)

/-- Completion with `enter_state(HALT)`. -/
def State.done (s : State) : State := s.enterState .halt

/-! ### The probe regulator (R444) -/

/-- The regulator's integrals for a target current. -/
def State.probeIntegrate (s : State) (t : Vec2) : State :=
  s.setAccPair 2
    ⟨s.integral (Reg.fsm_acc 2) (t.v0.sub (s.f Reg.lu_iX)), s.integral (Reg.fsm_acc 3) (t.v1.sub (s.f Reg.lu_iY))⟩

/-- One axis of the regulator's voltage. -/
def State.probeAxis (s : State) (e integral t : F32) : F32 :=
  (((s.f Reg.i_gain_P).mul e).add integral).add ((s.f Reg.const_R).mul t)

/-- The regulator's voltage, from the integrals already updated. -/
def State.probeVoltage (s : State) (t : Vec2) : Vec2 :=
  ⟨s.probeAxis (t.v0.sub (s.f Reg.lu_iX)) (s.f (Reg.fsm_acc 2)) t.v0,
    s.probeAxis (t.v1.sub (s.f Reg.lu_iY)) (s.f (Reg.fsm_acc 3)) t.v1⟩

/-- The clamp has been active for `max(tm_hold, 1)` ticks. -/
def State.saturated (s : State) : Bool :=
  s.flag Reg.vsi_lim && (I32.max (s.i Reg.tm_hold) 1).sle (s.i Reg.vsi_lim_tm)

/-- The integrals and the voltage of one tick of the regulator. -/
def State.probeDrive (s : State) (t : Vec2) : State :=
  (s.probeIntegrate t).pmVoltageXY ((s.probeIntegrate t).probeVoltage t)

/-- `probe_reg(tX, tY)`: the continuation runs unless CURRENT_LOOP_FAULT was raised. -/
def State.probeReg (s : State) (t : Vec2) (k : State → State) : State :=
  if (s.probeDrive t).saturated then (s.probeDrive t).raise .currentLoopFault false else k (s.probeDrive t)

/-- Turning the excitation phasor by an angle. -/
def State.turnPhasor (s : State) (a : F32) : State := s.setAccPair 0 (s.params.rot (s.accPair 0) a)

/-- `ω = 6.2831855 * probe_freq_sine` (R445). -/
def State.probeOmega (s : State) : F32 := F32.twoPi.mul (s.f Reg.probe_freq_sine)

/-- `dφ = ω * dT` (R443, R445). -/
def State.probeTurn (s : State) : F32 := s.probeOmega.mul (s.f Reg.dT)

/-! ### Supplied procedures (00 R8, R11; log entry 7) -/

/-- The registers in which every procedure works. -/
def workRegs : List Reg := [Reg.fsm_phase, Reg.tm_value, Reg.tm_end] ++ (List.range 16).map Reg.fsm_acc

/-- The registers a procedure writes: its working registers and its results (R442, R443, R445, R446, R447). -/
def procedureRegs : Procedure → List Reg
  | .pst => workRegs ++ [Reg.fsm_pst]
  | .adjust => workRegs ++ [Reg.adjust_IB 1, Reg.adjust_IC 1]
  | .probeR => workRegs ++ [Reg.const_R]
  | .probeL => workRegs ++ [Reg.const_Ld, Reg.const_Lq]
  | .probeE => workRegs ++ [Reg.const_E]

/-- Whether a procedure may drive the legs: in PROBE_CONST_E the loops drive the motor (R447). -/
def procedureDrives : Procedure → Bool
  | .pst => true
  | .adjust => true
  | .probeR => true
  | .probeL => true
  | .probeE => false

/-- A procedure's call of a sink; the duty sink is called once a tick (46 R407). -/
def State.procedureDrive (s : State) (p : Procedure) (f : State → State) : State :=
  s.when (procedureDrives p && !s.tl.emitted) f

/-- A procedure's write of one of its registers; a value that is not legal there is not written. -/
def State.procedureWrite (s : State) (p : Procedure) (k : Nat) (w : Word) : State :=
  match (procedureRegs p)[k]? with
  | some r => s.when (r.kind.legal w) (·.set r w)
  | none => s

/-- A procedure's fault, of a code that procedures raise. -/
def State.procedureRaise (s : State) (code : Word) : State :=
  match Errno.ofProcedure code with
  | some e => s.raise e false
  | none => s

/-- One act of a supplied procedure. -/
def State.procedureAct (s : State) (p : Procedure) : ProcedureAct → State
  | .emitZ mask => s.when (procedureDrives p) (·.emitZ (mask &&& 7))
  | .emitDuty d => s.procedureDrive p (fun t => t.emitDuty (t.drawnDuty d))
  | .voltage u => s.procedureDrive p (·.pmVoltageXY u)
  | .write k w => s.procedureWrite p k w
  | .raise code => s.procedureRaise code
  | .toHalt => s.enterState .halt
  | .toIdle => s.enterState .idle

/-- The acts of a supplied procedure, each chosen from the registers it finds. -/
def State.procedureActs (s : State) (p : Procedure) : Nat → State
  | 0 => s
  | n + 1 => (s.procedureAct p (Config.procedureAct p n s.regs)).procedureActs p n

/-- One tick of a supplied procedure. -/
def State.runSupplied (s : State) (p : Procedure) : State := s.procedureActs p (Config.procedureLength p s.regs)

/-- A configuration function that is a procedure: its reference form, or a supplied one. -/
def State.runChoice (s : State) (c : Choice) (p : Procedure) (reference : State → State) : State :=
  match c with
  | .reference => reference s
  | .supplied => s.runSupplied p

/-! ### ZERO_DRIFT (R440, R441) -/

/-- The mean of an accumulator. -/
def State.meanAcc (s : State) (i : Nat) : F32 := (s.f (Reg.fsm_acc i)).div (s.toF Reg.tm_probe)

/-- `mC`, 0 with two sensors. -/
def State.meanC (s : State) : F32 := if s.threeSensors then s.meanAcc 2 else F32.zero

/-- A drift beyond the tolerance, or not finite. -/
def State.driftBad (s : State) : Bool :=
  (s.meanAcc 0).abs.gt (s.f Reg.fault_current_tol) || (s.meanAcc 1).abs.gt (s.f Reg.fault_current_tol)
    || s.meanC.abs.gt (s.f Reg.fault_current_tol) || !(((s.meanAcc 0).add (s.meanAcc 1)).add s.meanC).isFinite

/-- The offsets stored by ZERO_DRIFT. -/
def State.storeOffsets (s : State) : State :=
  ((s.setF (Reg.adjust_IA 0) ((s.f (Reg.adjust_IA 0)).sub (s.meanAcc 0))).setF (Reg.adjust_IB 0)
    ((s.f (Reg.adjust_IB 0)).sub (s.meanAcc 1))).when s.threeSensors (fun t =>
      t.setF (Reg.adjust_IC 0) ((s.f (Reg.adjust_IC 0)).sub (s.meanAcc 2)))

/-- `zd_finish()` (R441). -/
def State.zdFinish (s : State) : State :=
  if s.i Reg.tm_probe = 0 then s.done
  else if s.driftBad then s.raise .zeroDriftFault false
  else s.storeOffsets.done

/-- `accumulate()` of ZERO_DRIFT (R440). -/
def State.zdSample (s : State) : State :=
  ((s.addAcc 0 (s.f Reg.fb_iA)).addAcc 1 (s.f Reg.fb_iB)).when s.threeSensors (·.addAcc 2 (s.f Reg.fb_iC))

/-- ZERO_DRIFT (R440). -/
def State.runZeroDrift (s : State) : State :=
  if s.phaseIs 0 then
    (((s.emitZ 7).clearAcc [0, 1, 2]).nextPhase 1 (s.i Reg.tm_skip)).settle controlNothing 2
  else if s.phaseIs 1 then s.settle controlNothing 2
  else if s.phaseIs 2 then s.accumulate controlNothing (·.zdSample) (·.zdFinish)
  else s

/-! ### POWER_STAGE_TEST (R442) -/

/-- Phase 7: the classification of the 18-bit pattern. -/
def State.pstClassify (s : State) : State :=
  if s.i Reg.fsm_pst = 0x1FF then s.done
  else if s.i Reg.fsm_pst = 0x111 then s.raise .noMotorConnected false
  else s.raise .powerStageFault false

/-- The duty of leg `i` when pulse `k` drives leg `j`. -/
def pulseDuty (res : I32) (k j i : Nat) : I32 := if i = j ∧ k < 3 then res else 0

/-- The first tick of pulse `k`: leg `k mod 3` switches, the others are in Z. -/
def State.pstDrive (s : State) (k : Nat) : State :=
  let res := s.i Reg.pwm_resolution
  let j := k % 3
  (((s.emitZ (7 - (1 <<< j))).emitDuty ⟨pulseDuty res k j 0, pulseDuty res k j 1, pulseDuty res k j 2⟩).set
    Reg.tm_value 0).set Reg.tm_end (I32.max (s.i Reg.tm_skip) 1)

/-- The bit of one terminal in the pattern. -/
def State.pstBit (s : State) (k i : Nat) (r : Reg) : Word :=
  if (s.f r).gt (F32.half.mul (s.f Reg.fb_uS)) then 1 <<< (3 * k + i) else 0

/-- The terminals sampled at the end of pulse `k`. -/
def State.pstSample (s : State) (k : Nat) : State :=
  s.set Reg.fsm_pst
    (((s.i Reg.fsm_pst ||| s.pstBit k 0 Reg.fb_uA) ||| s.pstBit k 1 Reg.fb_uB) ||| s.pstBit k 2 Reg.fb_uC)

/-- The end of pulse `k` in phase `k + 1`; after the sixth, the pattern is classified in the same tick. -/
def State.pstEnd (s : State) (k : Nat) : State :=
  ((((s.pstSample k).set Reg.fsm_phase (BitVec.ofNat 32 (k + 2))).set Reg.tm_end 0).when (k + 1 == Config.pstPulses) (·.pstClassify))

/-- Phase `k + 1`, pulse `k`. -/
def State.pstPulse (s : State) (k : Nat) : State :=
  if s.i Reg.tm_end = 0 then s.pstDrive k else s.countThen (·.pstEnd k)

/-- Phase 0. -/
def State.pstStart (s : State) : State :=
  if s.flag Reg.config_TVM then
    (((s.set Reg.fsm_pst 0).set Reg.fsm_phase 1).set Reg.tm_end 0).pstPulse 0
  else s.raise .invalidOperation false

/-- The phase number. -/
def State.phase (s : State) : Nat := (s.word Reg.fsm_phase.num).toNat

/-- The reference form `FN_PST` (R442): the start, one phase a pulse, the classification. -/
def State.pstReference (s : State) : State :=
  if s.phase = 0 then s.pstStart
  else if s.phase ≤ Config.pstPulses then s.pstPulse (s.phase - 1)
  else if s.phase = Config.pstPulses + 1 then s.pstClassify
  else s

/-- POWER_STAGE_TEST (R442). -/
def State.runPowerStageTest (s : State) : State := s.runChoice s.params.pst .pst (·.pstReference)

/-! ### ADJUST_CURRENT (R443) -/

/-- `control()` of ADJUST_CURRENT. -/
def adjustControl : Control := fun s k =>
  s.probeReg ⟨(s.f Reg.probe_current_hold).mul (s.accPair 0).v0, (s.f Reg.probe_current_hold).mul (s.accPair 0).v1⟩
    (fun t => k (t.turnPhasor t.probeTurn))

/-- `accumulate()` of ADJUST_CURRENT. -/
def State.adjustSample (s : State) : State :=
  ((s.dftAcc 4 (s.f Reg.fb_iA)).dftAcc 6 (s.f Reg.fb_iB)).dftAcc 8 (s.f Reg.fb_iC)

/-- The magnitudes of the three phases' phasors. -/
def State.adjustMagnitudes (s : State) : Option (Legs F32) :=
  let n := s.i Reg.tm_probe
  match dftPhasor (s.accPair 4) n, dftPhasor (s.accPair 6) n, dftPhasor (s.accPair 8) n with
  | some a, some b, some c => some ⟨s.params.norm a, s.params.norm b, s.params.norm c⟩
  | _, _, _ => none

/-- `kC`, 1 with two sensors. -/
def State.ratioC (s : State) (m : Legs F32) : F32 := if s.threeSensors then m.a.div m.c else F32.one

/-- A gain ratio outside the tolerance, or degenerate. -/
def State.adjustBad (s : State) (m : Legs F32) : Bool :=
  let kB := m.a.div m.b
  let kC := s.ratioC m
  !(m.b.gt F32.zero) || (s.threeSensors && !(m.c.gt F32.zero)) || !(kB.mul kC).isFinite
    || (kB.sub F32.one).abs.gt (s.f Reg.fault_adjust_tol) || (kC.sub F32.one).abs.gt (s.f Reg.fault_adjust_tol)

/-- The gains stored by ADJUST_CURRENT. -/
def State.storeGains (s : State) (m : Legs F32) : State :=
  (s.setF (Reg.adjust_IB 1) ((s.f (Reg.adjust_IB 1)).mul (m.a.div m.b))).when s.threeSensors (fun t =>
    t.setF (Reg.adjust_IC 1) ((s.f (Reg.adjust_IC 1)).mul (s.ratioC m)))

/-- `finish()` of ADJUST_CURRENT. -/
def State.adjustFinish (s : State) : State :=
  if s.i Reg.tm_probe = 0 then s.done
  else
    s.bindOr .dftZeroSamples s.adjustMagnitudes (fun m =>
      if s.adjustBad m then s.raise .currentSensorFault false else (s.storeGains m).done)

/-- Phase 0 of a probe: all legs switch, the accumulators start at 0, `fsm_acc[0]` at `first`. -/
def State.probeStart (s : State) (idx : List Nat) : State :=
  (((s.emitZ 0).clearAcc idx).nextPhase 1 (s.i Reg.tm_skip))

/-- The excitation phasor starts at (1, 0). -/
def State.phasorStart (s : State) : State := s.unitFrame Reg.fsm_acc

/-- The reference form `FN_ADJUST` (R443). -/
def State.adjustReference (s : State) : State :=
  if s.phaseIs 0 then
    ((s.probeStart [1, 2, 3, 4, 5, 6, 7, 8, 9]).phasorStart).settle adjustControl 2
  else if s.phaseIs 1 then s.settle adjustControl 2
  else if s.phaseIs 2 then s.accumulate adjustControl (·.adjustSample) (·.adjustFinish)
  else s

/-- ADJUST_CURRENT (R443). -/
def State.runAdjustCurrent (s : State) : State := s.runChoice s.params.adjust .adjust (·.adjustReference)

/-! ### PROBE_CONST_R (R446) -/

/-- `control()` of PROBE_CONST_R. -/
def probeRControl : Control := fun s k => s.probeReg ⟨s.f Reg.probe_current_hold, F32.zero⟩ k

/-- `accumulate()` of PROBE_CONST_R. -/
def State.probeRSample (s : State) : State := (s.addAcc 4 (s.f Reg.vsi_X)).addAcc 5 (s.f Reg.lu_iX)

/-- `fsm_acc[4] / fsm_acc[5]`. -/
def State.probeRatio (s : State) : F32 := (s.f (Reg.fsm_acc 4)).div (s.f (Reg.fsm_acc 5))

/-- A probe result is finite and positive. -/
def probeGood (v : F32) : Bool := v.isFinite && v.gt F32.zero

/-- `finish()` of PROBE_CONST_R. -/
def State.probeRFinish (s : State) : State :=
  if s.i Reg.tm_probe = 0 then s.done
  else if probeGood s.probeRatio then (s.setF Reg.const_R s.probeRatio).done
  else s.raise .invalidOperation false

/-- The reference form `FN_PROBE_R` (R446). -/
def State.probeRReference (s : State) : State :=
  if s.phaseIs 0 then (s.probeStart [2, 3, 4, 5]).settle probeRControl 2
  else if s.phaseIs 1 then s.settle probeRControl 2
  else if s.phaseIs 2 then s.accumulate probeRControl (·.probeRSample) (·.probeRFinish)
  else s

/-- PROBE_CONST_R (R446). -/
def State.runProbeR (s : State) : State := s.runChoice s.params.probeR .probeR (·.probeRReference)

/-! ### PROBE_CONST_L (R445) -/

/-- Stage D (phases 1, 2), else stage Q. -/
def State.stageD (s : State) : Bool := (s.i Reg.fsm_phase).sle 2

/-- The target current of PROBE_CONST_L. -/
def State.probeLTarget (s : State) : Vec2 :=
  let h := s.f Reg.probe_current_hold
  let a := (s.f Reg.probe_current_sine).mul (s.f (Reg.fsm_acc 0))
  if s.stageD then ⟨h.add a, F32.zero⟩ else ⟨h, a⟩

/-- `control()` of PROBE_CONST_L. -/
def probeLControl : Control := fun s k => s.probeReg s.probeLTarget (fun t => k (t.turnPhasor t.probeTurn))

/-- `accumulate()` of PROBE_CONST_L. -/
def State.probeLSample (s : State) : State :=
  if s.stageD then (s.dftAcc 4 (s.f Reg.vsi_X)).dftAcc 6 (s.f Reg.lu_iX)
  else (s.dftAcc 4 (s.f Reg.vsi_Y)).dftAcc 6 (s.f Reg.lu_iY)

/-- `inductance()`. -/
def State.inductance (s : State) : F32 :=
  let u := s.accPair 4
  let i := s.accPair 6
  ((u.v0.mul i.v1).sub (u.v1.mul i.v0)).div (((i.v0.mul i.v0).add (i.v1.mul i.v1)).mul s.probeOmega)

/-- `finish()` of stage D. -/
def State.probeLMiddle (s : State) : State :=
  if s.i Reg.tm_probe = 0 then s.done
  else ((s.setF (Reg.fsm_acc 8) s.inductance).clearAcc [4, 5, 6, 7]).nextPhase 3 (s.i Reg.tm_skip)

/-- `finish()` of stage Q. -/
def State.probeLFinish (s : State) : State :=
  if probeGood (s.f (Reg.fsm_acc 8)) && probeGood s.inductance then
    ((s.copy Reg.const_Ld (Reg.fsm_acc 8)).setF Reg.const_Lq s.inductance).done
  else s.raise .invalidOperation false

/-- The reference form `FN_PROBE_L` (R445). -/
def State.probeLReference (s : State) : State :=
  if s.phaseIs 0 then
    ((s.probeStart [1, 2, 3, 4, 5, 6, 7, 8]).phasorStart).settle probeLControl 2
  else if s.phaseIs 1 then s.settle probeLControl 2
  else if s.phaseIs 2 then s.accumulate probeLControl (·.probeLSample) (·.probeLMiddle)
  else if s.phaseIs 3 then s.settle probeLControl 4
  else if s.phaseIs 4 then s.accumulate probeLControl (·.probeLSample) (·.probeLFinish)
  else s

/-- PROBE_CONST_L (R445). -/
def State.runProbeL (s : State) : State := s.runChoice s.params.probeL .probeL (·.probeLReference)

/-! ### PROBE_CONST_E and PROBE_CONST_J (R447, R448) -/

/-- `uQ − R·iQ − ω·Ld·iD`. -/
def State.probeETerm (s : State) : F32 :=
  ((s.f Reg.vsi_Q).sub ((s.f Reg.const_R).mul (s.f Reg.lu_iQ))).sub
    (((s.f Reg.lu_wS).mul (s.f Reg.const_Ld)).mul (s.f Reg.lu_iD))

/-- `accumulate()` of PROBE_CONST_E. -/
def State.probeESample (s : State) : State := (s.addAcc 4 s.probeETerm).addAcc 5 (s.f Reg.lu_wS)

/-- `finish()` of PROBE_CONST_E: it ends in IDLE, the motor keeps running. -/
def State.probeEFinish (s : State) : State :=
  if s.i Reg.tm_probe = 0 then s.enterState .idle
  else if probeGood s.probeRatio then (s.setF Reg.const_E s.probeRatio).enterState .idle
  else s.raise .invalidOperation false

/-- The reference form `FN_PROBE_E` (R447). -/
def State.probeEReference (s : State) : State :=
  if s.phaseIs 0 then ((s.clearAcc [4, 5]).nextPhase 1 (s.i Reg.tm_skip)).settle controlNothing 2
  else if s.phaseIs 1 then s.settle controlNothing 2
  else if s.phaseIs 2 then s.accumulate controlNothing (·.probeESample) (·.probeEFinish)
  else s

/-- PROBE_CONST_E (R447). -/
def State.runProbeE (s : State) : State := s.runChoice s.params.probeE .probeE (·.probeEReference)

/-- PROBE_CONST_J (R448): it only returns to IDLE. -/
def State.runProbeJ (s : State) : State := if s.phaseIs 0 then s.enterState .idle else s

/-! ### HALT, LU_INITIATE, LU_SHUTDOWN (R449-R451) -/

/-- HALT (R449). -/
def State.runHalt (s : State) : State :=
  if s.phaseIs 0 then s.haltEntry else if s.phaseIs 1 then s.haltReturn else s

/-- The estimator's registers that reset to 0 (R450). -/
def estimatorZeros : List Reg :=
  [Reg.lu_wS, Reg.lu_wS_prev, Reg.lu_revol, Reg.lu_revob, Reg.lu_location, Reg.lu_mq_load, Reg.forced_wS, Reg.flux_wS,
    Reg.flux_ZONE, Reg.flux_lpf_wS, Reg.flux_zone_tm, Reg.flux_X 0, Reg.flux_X 1, Reg.flux_E, Reg.flux_lpf_bare,
    Reg.flux_detach_tm]

/-- The EKF's and HFI's registers that reset to 0 (R450). -/
def observerZeros : List Reg :=
  covRegs ++ gainRegs ++
    [Reg.kalman_X 0, Reg.kalman_X 1, Reg.kalman_uX, Reg.kalman_uY, Reg.kalman_pending, Reg.hfi_inject, Reg.hfi_wS,
      Reg.hfi_pol]

/-- `estimator_reset()`. -/
def State.estimatorReset (s : State) : State :=
  ((((((((s.unitFrame Reg.lu_F).unitFrame Reg.lu_Fp).unitFrame Reg.forced_F).unitFrame Reg.flux_F).unitFrame
    Reg.flux_Fb).unitFrame Reg.hfi_wave).unitFrame Reg.hfi_F).clear estimatorZeros).clear observerZeros

/-- The sensors' registers that reset to 0 (R450). -/
def sensorZeros : List Reg :=
  [Reg.hall_wS, Reg.hall_ERR, Reg.eabi_init, Reg.eabi_count, Reg.eabi_revol, Reg.eabi_wS, Reg.eabi_interp,
    Reg.eabi_location, Reg.sincos_init, Reg.sincos_revol, Reg.sincos_quad, Reg.sincos_wS, Reg.sincos_location]

/-- `sensors_reset()`. -/
def State.sensorsReset (s : State) : State :=
  (((s.unitFrame Reg.hall_F).unitFrame Reg.eabi_F).unitFrame Reg.sincos_F).clear sensorZeros

/-- LU_INITIATE (R450). -/
def State.runInitiate (s : State) : State :=
  if s.phaseIs 0 then
    ((((((s.estimatorReset.sensorsReset.loopsReset).set Reg.lu_mode LuMode.detached.code).set Reg.lu_tm 0).set
      Reg.flux_detach_tm 0).emitZ 7).enterState .idle)
  else s

/-- LU_SHUTDOWN (R451): HALT is entered and its phase 0 runs in this tick. -/
def State.runShutdown (s : State) : State := if s.phaseIs 0 then (s.enterState .halt).haltEntry else s

/-! ### The step and the gate (R430, R431) -/

/-- `run_state(r.fsm_state)`: IDLE does nothing (R432). -/
def State.runState (s : State) : State :=
  match FsmState.ofWord (s.word Reg.fsm_state.num) with
  | some .idle => s
  | some .zeroDrift => s.runZeroDrift
  | some .powerStageTest => s.runPowerStageTest
  | some .adjustCurrent => s.runAdjustCurrent
  | some .probeConstR => s.runProbeR
  | some .probeConstL => s.runProbeL
  | some .luInitiate => s.runInitiate
  | some .luShutdown => s.runShutdown
  | some .probeConstE => s.runProbeE
  | some .probeConstJ => s.runProbeJ
  | some .halt => s.runHalt
  | none => s.poison .illegalCode

/-- `gate(q)` (R431). -/
def State.gate (s : State) (q : FsmState) : Bool :=
  let idle := s.fsmIs .idle
  let en := !s.modeIs .disabled
  match q with
  | .idle => false
  | .zeroDrift => idle && !en
  | .powerStageTest => idle && !en
  | .adjustCurrent => idle && !en
  | .probeConstR => idle && !en
  | .probeConstL => idle && !en
  | .luInitiate => idle && !en
  | .luShutdown => idle && en
  | .probeConstE => idle && en
  | .probeConstJ => idle && en
  | .halt => true

/-- The effect of a consumed request (R430): HALT unless it runs already, else what the gate accepts. An accepted request
clears `fsm_errno` even when step S4 of this tick has latched a fault (`HALT_SAME_TICK` false), where 60 R502 item 2, 60 R500's
last corner case and D17's second sentence keep the code: DESIGN CHOICE, the model follows R430's pseudocode (log entry 27). -/
def State.takeRequest (s : State) (q : FsmState) : State :=
  if q = .halt then s.when (!s.fsmIs .halt) (·.enterState .halt)
  else s.when (s.gate q) (fun t => (t.set Reg.fsm_errno Errno.ok.code).enterState q)

/-- The request slot is consumed at the top of the FSM step (R430). -/
def State.consumeRequest (s : State) : State :=
  if s.word Reg.fsm_req.num = 0 then s
  else
    match FsmState.ofWord (s.word Reg.fsm_req.num) with
    | some q => (s.set Reg.fsm_req 0).takeRequest q
    | none => s.poison .illegalCode

/-- `fsm_step()` (R430). -/
def State.fsmStep (s : State) : State := s.consumeRequest.runState

end Sys2Proof.Machine
end

