-- ==== Sys2Proof/Machine/Tick.lean ====
section
/-!
DEFINITION. The tick sequencer (spec/41_tick_feedback.md R200, R207, R208; spec/48_host_ops.md R481).
-/

namespace Sys2Proof.Machine

/-! ### S7d: the drive (R208) -/

/-- The outer loops of the drive: location, then speed. -/
def State.outerLoops (s : State) : State :=
  (s.when (s.driveIs .location && !s.modeIs .forced) (·.locationLoop)).when
    (s.driveIs .speed || s.driveIs .location || s.modeIs .forced) (·.speedLoop)

/-- `pm_voltage_dq(r.vsi_D, r.vsi_Q, r.lu_F)`. -/
def State.driveVoltage (s : State) : State := s.pmVoltageDQ s.issuedDQ (s.vec Reg.lu_F)

/-- `drive()`: in DETACHED the legs are in Z and nothing runs. -/
def State.drive (s : State) : State := if s.modeIs .detached then s else s.outerLoops.currentLoop.driveVoltage

/-! ### S7c: the frame check (R207) -/

/-- `DUTY_DRAW()`: no call, or one call with any counts (R207, 60 R506; log entry 5). -/
def State.dutyDraw (s : State) : State :=
  let t := { s with draws := s.draws + 1 }
  match Config.dutyDraw s.draws with
  | none => t
  | some d => t.emitDuty (s.drawnDuty d)

/-- The authoritative frame is finite. -/
def State.frameFinite (s : State) : Bool := (s.vec Reg.lu_F).isFinite

/-- The fault of a non-finite frame, with this tick's duty a draw. -/
def State.frameFault (s : State) : State := (s.raise .invalidOperation false).dutyDraw

/-- S7c to S7e: with a finite frame, the drive and the mileage. -/
def State.checkedDrive (s : State) : State := if s.frameFinite then s.drive.mileage else s.frameFault

/-! ### The sequence -/

/-- S7, run unless `lu_mode` is DISABLED. -/
def State.lookupPart (s : State) : State :=
  if s.modeIs .disabled then s else s.luStep.projectCurrent.checkedDrive

/-- S8, the postponed EKF step. -/
def State.postponedPart (s : State) : State := s.when (s.flag Reg.kalman_pending) (·.kalmanPostponed)

/-- S9, the deferred fault request. -/
def State.deferredPart (s : State) : State := s.when (!s.params.haltSameTick) (·.applyDeferred)

/-- Steps S1 to S9. -/
def State.sequence (s : State) (fb : Feedback) : State :=
  (((s.ingest fb).fsmStep).lookupPart).postponedPart.deferredPart

/-- The tick-local marks are cleared at the start of every TICK. -/
def State.openTick (s : State) : State := { s with tl := TickLocal.none }

/-- The end of a TICK: the marks are gone and the cycle is counted. -/
def State.closeTick (s : State) : State := { s with tl := TickLocal.none, tick := s.tick + 1 }

/-- The outcome of a TICK: a run that reached an `UNMODELLED` condition has no next state (60 R505). -/
def State.endTick (s : State) : Host.Outcome State Fault Refusal :=
  match s.tl.unmodelled with
  | some why => .fault why
  | none => .next s.closeTick

/-- A TICK outside a GUARD, from the state it starts in. -/
def State.runTick (s : State) (fb : Feedback) : Host.Outcome State Fault Refusal := (s.openTick.sequence fb).endTick

end Sys2Proof.Machine
end

