-- ==== Sys2Proof/Machine/HostOps.lean ====
section
/-!
DEFINITION. The meanings of the 13 host operations (spec/48_host_ops.md R481-R498), one definition a row. A refusal is a
next state with the refusal mark (R488, log entry 2).
-/

namespace Sys2Proof.Machine

/-- TICK (R481); inside a GUARD it is refused (30 R150). -/
def execTick (fb : Feedback) (s : State) : Host.Outcome State Fault Refusal :=
  if s.guardOpen then .next (s.startOp.refuse .tickInGuard) else s.startOp.runTick fb

/-- REQ_ZERO_DRIFT (R489). -/
def execReqZeroDrift (s : State) : Host.Outcome State Fault Refusal := .next (s.startOp.request .zeroDrift)

/-- REQ_POWER_STAGE_TEST (R490). -/
def execReqPowerStageTest (s : State) : Host.Outcome State Fault Refusal := .next (s.startOp.request .powerStageTest)

/-- REQ_ADJUST_CURRENT (R491). -/
def execReqAdjustCurrent (s : State) : Host.Outcome State Fault Refusal := .next (s.startOp.request .adjustCurrent)

/-- REQ_PROBE_CONST_R (R492). -/
def execReqProbeConstR (s : State) : Host.Outcome State Fault Refusal := .next (s.startOp.request .probeConstR)

/-- REQ_PROBE_CONST_L (R493). -/
def execReqProbeConstL (s : State) : Host.Outcome State Fault Refusal := .next (s.startOp.request .probeConstL)

/-- REQ_LU_INITIATE (R494). -/
def execReqLuInitiate (s : State) : Host.Outcome State Fault Refusal := .next (s.startOp.request .luInitiate)

/-- REQ_LU_SHUTDOWN (R495). -/
def execReqLuShutdown (s : State) : Host.Outcome State Fault Refusal := .next (s.startOp.request .luShutdown)

/-- REQ_PROBE_CONST_E (R496). -/
def execReqProbeConstE (s : State) : Host.Outcome State Fault Refusal := .next (s.startOp.request .probeConstE)

/-- REQ_PROBE_CONST_J (R497). -/
def execReqProbeConstJ (s : State) : Host.Outcome State Fault Refusal := .next (s.startOp.request .probeConstJ)

/-- REQ_HALT (R498). -/
def execReqHalt (s : State) : Host.Outcome State Fault Refusal := .next (s.startOp.request .halt)

/-- REG_READ (R482); an unassigned register is refused (20 R101). -/
def execRegRead (reg : BitVec 9) (s : State) : Host.Outcome State Fault Refusal :=
  if Reg.assigned reg.toNat then .next (s.startOp.respond (s.word reg.toNat))
  else .next (s.startOp.refuse (.undecodable .unassigned))

/-- REG_WRITE (R483); an unassigned register is refused (20 R101), and so is an illegal value (10 R57). -/
def execRegWrite (reg : BitVec 9) (value : Word) (s : State) : Host.Outcome State Fault Refusal :=
  if Reg.assigned reg.toNat then .next (s.startOp.hostWrite reg.toNat value)
  else .next (s.startOp.refuse (.undecodable .unassigned))

end Sys2Proof.Machine
end

