-- ==== Sys2Proof/Machine/Dispatch.lean ====
section
/-!
DEFINITION. The meaning of a decoded host operation: one arm per constructor (spec/48_host_ops.md R480).
-/

namespace Sys2Proof.Machine

def exec (i : Instr) (s : State) : Host.Outcome State Fault Refusal :=
  match i with
  | .tick fb => Sys2Proof.Machine.execTick fb s
  | .reqZeroDrift => Sys2Proof.Machine.execReqZeroDrift s
  | .reqPowerStageTest => Sys2Proof.Machine.execReqPowerStageTest s
  | .reqAdjustCurrent => Sys2Proof.Machine.execReqAdjustCurrent s
  | .reqProbeConstR => Sys2Proof.Machine.execReqProbeConstR s
  | .reqProbeConstL => Sys2Proof.Machine.execReqProbeConstL s
  | .reqLuInitiate => Sys2Proof.Machine.execReqLuInitiate s
  | .reqLuShutdown => Sys2Proof.Machine.execReqLuShutdown s
  | .reqProbeConstE => Sys2Proof.Machine.execReqProbeConstE s
  | .reqProbeConstJ => Sys2Proof.Machine.execReqProbeConstJ s
  | .reqHalt => Sys2Proof.Machine.execReqHalt s
  | .regRead reg => Sys2Proof.Machine.execRegRead reg s
  | .regWrite reg value => Sys2Proof.Machine.execRegWrite reg value s

end Sys2Proof.Machine
end

