-- ==== Sys2Proof/Machine/Schedule.lean ====
section
/-!
DEFINITION. The schedule of host operations (spec/20_memory.md R108, R110; spec/30_encoding.md R150): the delivered bytes
are decoded one operation at a time; a guarded segment is one step. See log entries 1, 16, 17.
-/

namespace Sys2Proof.Machine

/-- A word that is no operation is refused (48 R488). -/
def State.refuseWord (s : State) (why : Reject) : State := s.startOp.refuse (.undecodable why)

/-- What is left of an unguarded segment, put back before the later ones. -/
def leftOver (bytes : List Byte) (later : List Segment) : List Segment :=
  match bytes with
  | [] => later
  | b :: bs => ⟨false, b :: bs⟩ :: later

/-- The state with the first segment replaced by what is left of it. -/
def State.setInbox (s : State) (inbox : List Segment) : State := { s with inbox := inbox }

/-- One operation from an unguarded segment; an empty segment is no operation. -/
def State.stepBytes (s : State) (bytes : List Byte) (later : List Segment) : Host.Outcome State Fault Refusal :=
  match bytes with
  | [] => .next (s.setInbox later)
  | b :: bs =>
    match decode (b :: bs) with
    | .op i rest => exec i (s.setInbox (leftOver rest later))
    | .rejected why rest => .next ((s.setInbox (leftOver rest later)).refuseWord why)

/-- The operations of a guarded group, in order; a refused one does not abort the rest (48 R488). -/
def runGuarded : Nat → List Byte → State → Host.Outcome State Fault Refusal
  | 0, _, s => .next s
  | _ + 1, [], s => .next s
  | n + 1, b :: bs, s =>
    match decode (b :: bs) with
    | .op i rest =>
      match exec i s with
      | .next t => runGuarded n rest t
      | .fault why => .fault why
      | .refused why => .refused why
    | .rejected why rest => runGuarded n rest (s.refuseWord why)

/-- The GUARD is opened: the interrupt is masked, and the group's outputs start empty. -/
def State.openGuard (s : State) : State := { s.startOp with guardOpen := true }

/-- The GUARD is closed. -/
def State.closeGuard (s : State) : State := { s with guardOpen := false }

/-- A guarded group, one atomic step (20 R110). -/
def State.stepGuard (s : State) (bytes : List Byte) (later : List Segment) : Host.Outcome State Fault Refusal :=
  match runGuarded bytes.length bytes (s.setInbox later).openGuard with
  | .next t => .next t.closeGuard
  | .fault why => .fault why
  | .refused why => .refused why

/-- The next step of the total order of operations (20 R108); with nothing delivered, nothing changes. -/
def State.hostStep (s : State) : Host.Outcome State Fault Refusal :=
  match s.inbox with
  | [] => .next s
  | seg :: later => if seg.guarded then s.stepGuard seg.bytes later else s.stepBytes seg.bytes later

/-- The operation of a table word, delivered as the next one. -/
def State.deliverTableWord (s : State) (nbits w : Nat) : State :=
  s.setInbox (⟨false, tableOp nbits w⟩ :: s.inbox)

end Sys2Proof.Machine
end

