-- ==== Sys2Proof/Machine/Step.lean ====
section
/-!
DEFINITION. One step of the machine, and the placing of a table word where the step fetches its next operation.
-/

namespace Sys2Proof.Machine

/-- One step: the next host operation, or the next guarded group. -/
def step (s : State) : Host.Outcome State Fault Refusal := s.hostStep

/-- `s` with the operation of a table word as the next one delivered (log entry 1). -/
def State.withFetchWord (s : State) (nbits w : Nat) : State := s.deliverTableWord nbits w

end Sys2Proof.Machine
end

