-- ==== Sys2Proof/Safety.lean ====
section
/-!
DEFINITION. What counts as a sound state, in the terms statements use: the record's canonical form and types
(spec/10_state.md R56, R57), the output sinks' contract (spec/30_encoding.md R134, R141; spec/46_voltage.md R407), and the
invariant of the machine between operations.
-/

namespace Sys2Proof.Machine

/-- Every register holds a value of its type, and no unassigned number holds anything (10 R57, 20 R101). -/
def RegFile.typed (l : RegFile) : Bool := l.all (fun p => Reg.mayHold p.1 p.2)

/-- A call of the duty sink. -/
def SinkCall.isDuty : SinkCall → Bool
  | .duty _ _ _ => true
  | .z _ => false

/-- A duty count in `[0, res]` (30 R134). -/
def dutyInRange (res d : I32) : Bool := (0 : I32).sle d && d.sle res

/-- A call the sinks' contract admits: three counts in `[0, res]`, or a mask of three bits (30 R134, R141). -/
def SinkCall.ok (res : I32) : SinkCall → Bool
  | .duty a b c => dutyInRange res a && dutyInRange res b && dutyInRange res c
  | .z mask => Nat.blt mask.toNat 8

/-- How often the duty sink was called. -/
def Outputs.dutyCalls (o : Outputs) : Nat := o.sinks.countP SinkCall.isDuty

/-- The last operation kept the sinks' contract: at most one duty, every call admitted (46 R407). -/
def State.outputsOk (s : State) : Bool :=
  s.out.sinks.all (SinkCall.ok (s.i Reg.pwm_resolution)) && Nat.ble s.out.dutyCalls 1

/-- What the bridge holds could have been emitted: no negative count, a mask of three bits. -/
def Bridge.ok (b : Bridge) : Bool :=
  (match b.duty with
    | some d => (0 : I32).sle d.a && (0 : I32).sle d.b && (0 : I32).sle d.c
    | none => true) &&
  (match b.z with
    | some m => Nat.blt m.toNat 8
    | none => true)

/-- The record is sound: canonical and typed. -/
def State.sound (s : State) : Bool := s.regs.wf && s.regs.typed

/-- The invariant between operations: a sound record, no tick-local mark, no GUARD open, the sinks' contract kept. -/
def State.inv (s : State) : Bool :=
  s.sound && decide (s.tl = TickLocal.none) && !s.guardOpen && s.outputsOk && s.bridge.ok

/-- The faults a TICK from a sound state can end in: those of `pm_voltage` and of the duty sink (60 R505). -/
def Fault.ofVoltage : List Fault := [.nonFiniteVoltage, .floorDomain, .dutyOutOfRange, .dutyTwice]

/-! ### Register ranges -/

/-- Register ranges, both ends included. -/
abbrev Ranges := List (Nat × Nat)

/-- Whether a number lies in the ranges. -/
def Ranges.has (W : Ranges) (n : Nat) : Bool := W.any (fun p => Nat.ble p.1 n && Nat.ble n p.2)

/-- Every register a TICK may write: the Hall selection (44 R323), the probed plant constants R, Ld, Lq, E (47 R445-R447),
`adjust_IA[0]`, `adjust_IB` and `adjust_IC` (47 R441, R443), and the feedback, VSI, estimator, sensor, loop and FSM registers
(10 R45-R50). Every other configuration register, plant constant and parameter is the host's alone. -/
abbrev tickRegs : Ranges :=
  [(4, 4), (32, 35), (48, 48), (50, 53), (256, 282), (288, 312), (320, 332), (336, 338), (344, 356), (360, 389),
    (392, 398), (400, 403), (408, 416), (420, 428), (432, 442), (444, 445), (448, 448), (452, 455), (464, 486)]

/-! ### Terms of the statements -/

/-- `t` agrees with `s` in every register outside the ranges. -/
def State.agreesOff (W : Ranges) (s t : State) : Prop := ∀ n, W.has n = false → t.word n = s.word n

/-- The ten REQ rows with the state each requests (30 R136, R144). -/
def requestRows : List (Instr × FsmState) :=
  [(.reqZeroDrift, .zeroDrift), (.reqPowerStageTest, .powerStageTest), (.reqAdjustCurrent, .adjustCurrent),
    (.reqProbeConstR, .probeConstR), (.reqProbeConstL, .probeConstL), (.reqLuInitiate, .luInitiate),
    (.reqLuShutdown, .luShutdown), (.reqProbeConstE, .probeConstE), (.reqProbeConstJ, .probeConstJ), (.reqHalt, .halt)]

/-- The operations of a list, run in order, lead from `s` to `t`. -/
def State.Runs : List Instr → State → State → Prop
  | [], s, t => t = s
  | i :: is, s, t => ∃ u, exec i s = .next u ∧ State.Runs is u t

/-- The state of a TICK after steps S1 to S3, where the fault checks of S4 look at it. -/
def State.measured (s : State) (fb : Feedback) : State := s.startOp.openTick.measure fb

/-- The electrical fault that a HALT records when one is present: the over-current before the over-voltage (41 R204,
60 R502). -/
def State.electricalFault (s : State) : Errno := if s.overCurrent then .instantOvercurrent else .dcLinkOvervoltage

/-- Neither electrical fault is present in this TICK (41 R204). -/
def State.faultFree (s : State) (fb : Feedback) : Bool := !(s.measured fb).overCurrent && !(s.measured fb).overVoltage

end Sys2Proof.Machine
end

