-- ==== Sys2Proof/Certificates/Slice0/Obligations.lean ====
section
/-!
DEFINITION. The statements about the machine, each from the rules of the spec that its docstring names. A statement about
every state holds in states that no run reaches, too; where it could fail only there, its premise is the invariant
`State.inv`, or the part of it `State.sound`, which `Obligations.StepKeepsInvariant` says every step keeps.
-/

open Sys2Proof Sys2Proof.Machine

/-! ### The whole machine -/

/-- Every step from a state that meets the invariant gives one that does: the record stays canonical and every register
keeps a value of its type (10 R57), no tick-local mark survives its TICK (48 R481), no GUARD stays open (20 R110), at most one
duty goes out and every sink call is in its range (30 R134, R141; 46 R407). That a configuration function a user supplies
writes legal values only and calls the sinks in range is the model's choice (log entry 7). -/
def Obligations.StepKeepsInvariant : Prop := ∀ s t : State, s.inv = true → step s = .next t → t.inv = true

/-- The state after reset meets the invariant (70 R551). -/
def Obligations.ResetMeetsInvariant : Prop := State.reset.inv = true

/-- What reset leaves (70 R551): the calibration scales are 1.0, every frame and `hfi_wave` is (1, 0), `vsi_IF` is 1, every
other register is 0; no sink has been called, no GUARD is open, no tick-local mark is set. -/
def Obligations.ResetRegisterValues : Prop :=
  (∀ n < 512, State.reset.word n =
    if [49, 51, 53, 55, 57, 59, 61].contains n then 0x3F800000
    else if [321, 331, 336, 344, 355, 393, 395, 400, 411, 424].contains n then 0x3F800000
    else if [292, 293, 294].contains n then 1
    else 0) ∧
  State.reset.out = Outputs.none ∧ State.reset.bridge = ⟨none, none⟩ ∧ State.reset.guardOpen = false ∧
  State.reset.tl = TickLocal.none

/-- A TICK from a sound state answers a next state, or it stops in the voltage stage: at a non-finite voltage command, at a
duty ratio that is no number, at a count the duty sink does not take, or at a second duty (60 R505; 46 R400, R407; 40 R172).
No other condition of 60 R505 is reached from a sound state, whatever the OPEN parameters. That a configuration function a
user supplies reaches none of its own is the model's choice (log entry 7); so is the fault `illegalCode`, which no sound state
raises (log entry 12); that the fault is named after the first condition is the model's reading (log entry 13). -/
def Obligations.TickStopsOnlyInVoltageStage : Prop :=
  ∀ (s : State) (fb : Feedback), s.sound = true → s.guardOpen = false →
    (∃ t, exec (.tick fb) s = .next t) ∨
    ∃ why, exec (.tick fb) s = .fault why ∧
      (why = .nonFiniteVoltage ∨ why = .floorDomain ∨ why = .dutyOutOfRange ∨ why = .dutyTwice)

/-- Only a TICK stops: every other operation of any state answers a next state (48 R482, R483, R487, R488). -/
def Obligations.OnlyTickStops : Prop :=
  ∀ (i : Instr) (s : State), (∀ fb, i ≠ .tick fb) → ∃ t, exec i s = .next t

/-! ### Encoding and the schedule -/

/-- Decoding the bytes of a well-formed operation gives it back, with every operand, and leaves the bytes that follow
(30 R130-R133, R144, R145; 20 R102). -/
def Obligations.DecodeOfEncode : Prop :=
  ∀ (i : Instr) (rest : List Byte), i.wellFormed = true → decode (encode i ++ rest) = .op i rest

/-- What the decoder reads is well formed and is exactly its own encoding: no other bytes are read as an operation
(30 R145, R146). -/
def Obligations.DecodedIsItsEncoding : Prop :=
  ∀ (bytes rest : List Byte) (i : Instr), decode bytes = .op i rest → i.wellFormed = true ∧ bytes = encode i ++ rest

/-- A few operation words of 30 R144, R145 and of the examples of 48 R482, R483, R488, as the decoder reads them. -/
def Obligations.OperationWordsDecode : Prop :=
  decodeWord 0x10000001 [] = .ok .reqZeroDrift ∧ decodeWord 0x1000000A [] = .ok .reqHalt ∧
  decodeWord 0x200001D0 [] = .ok (.regRead 464) ∧ decodeWord 0x30000096 [0x40A00000] = .ok (.regWrite 150 0x40A00000) ∧
  decodeWord 0x40000000 [] = .error .reservedClass ∧ decodeWord 0x10000000 [] = .error .badRequest ∧
  decodeWord 0x1000000B [] = .error .badRequest ∧ decodeWord 0x00000001 [] = .error .strayBits ∧
  decodeWord 0x20000013 [] = .error .unassigned

/-- A step runs the operation at the head of what has been delivered, on the state in which its bytes are consumed
(48 R480, 20 R108). -/
def Obligations.StepRunsDecoded : Prop :=
  ∀ (s : State) (bytes rest : List Byte) (later : List Segment) (i : Instr),
    s.inbox = ⟨false, bytes⟩ :: later → decode bytes = .op i rest →
    step s = exec i (s.setInbox (leftOver rest later))

/-- A guarded group is one step: its operations run in order, whatever they are, then the GUARD is closed; the group calls
no sink and counts no cycle (20 R110, 30 R150). -/
def Obligations.GuardRunsTheGroup : Prop :=
  ∀ (s : State) (is : List Instr) (later : List Segment), s.guardOpen = false → (∀ i ∈ is, i.wellFormed = true) →
    s.inbox = ⟨true, is.flatMap encode⟩ :: later →
    ∃ t, State.Runs is (s.setInbox later).openGuard t ∧ step s = .next t.closeGuard ∧
      t.out.sinks = [] ∧ t.bridge = s.bridge ∧ t.tick = s.tick

/-- A refused operation changes no register, emits nothing and returns no value; the refusal is recorded (48 R488). Refused
are: bytes that are no operation (30 R146), a REG_READ or REG_WRITE of an unassigned register (20 R101), a REG_WRITE of an
illegal value (10 R57), a TICK inside a GUARD (30 R150). -/
def Obligations.RefusedOperationOnlyRecorded : Prop :=
  ∀ s : State,
    (∀ (b : Byte) (bytes rest : List Byte) (later : List Segment) (why : Reject),
      s.inbox = ⟨false, b :: bytes⟩ :: later → decode (b :: bytes) = .rejected why rest →
      step s = .next { s.startOp with
        inbox := leftOver rest later
        out := { s.startOp.out with refused := s.startOp.out.refused ++ [.undecodable why] }
        refusals := s.refusals + 1 }) ∧
    (∀ reg : BitVec 9, Reg.assigned reg.toNat = false →
      exec (.regRead reg) s = .next { s.startOp with
        out := { s.startOp.out with refused := s.startOp.out.refused ++ [.undecodable .unassigned] }
        refusals := s.refusals + 1 }) ∧
    (∀ (reg : BitVec 9) (v : Word), Reg.assigned reg.toNat = false →
      exec (.regWrite reg v) s = .next { s.startOp with
        out := { s.startOp.out with refused := s.startOp.out.refused ++ [.undecodable .unassigned] }
        refusals := s.refusals + 1 }) ∧
    (∀ (reg : BitVec 9) (v : Word), Reg.assigned reg.toNat = true → Reg.mayHold reg.toNat v = false →
      exec (.regWrite reg v) s = .next { s.startOp with
        out := { s.startOp.out with refused := s.startOp.out.refused ++ [.illegalValue reg.toNat v] }
        refusals := s.refusals + 1 }) ∧
    (∀ fb : Feedback, s.guardOpen = true →
      exec (.tick fb) s = .next { s with
        out := { s.out with refused := s.out.refused ++ [.tickInGuard] }
        refusals := s.refusals + 1 })

/-! ### REG_READ and REG_WRITE -/

/-- REG_READ returns the word of its register and has no other effect (48 R482, 20 R104, R106). -/
def Obligations.RegReadReturnsTheWord : Prop :=
  ∀ (s : State) (reg : BitVec 9), Reg.assigned reg.toNat = true →
    (encodeWord (.regRead reg)).toNat = 0x20000000 + reg.toNat ∧
    exec (.regRead reg) s =
      .next { s.startOp with out := { s.startOp.out with responses := s.startOp.out.responses ++ [s.word reg.toNat] } }

/-- REG_WRITE of a legal value stores all 32 bits; a write to `fsm_state` also zeroes `fsm_phase`; nothing else changes, for
a write to `lu_mode` neither. A write of another value is refused and leaves every register; SENSOR_SINCOS is such a value for
`lu_mode` (48 R483, 10 R57). -/
def Obligations.RegWriteStoresTheWord : Prop :=
  Reg.mayHold 320 LuMode.sensorSincos.code = false ∧
  (∀ (s : State) (reg : BitVec 9) (v : Word), Reg.mayHold reg.toNat v = false →
    ∃ t, exec (.regWrite reg v) s = .next t ∧ t.regs = s.regs ∧ t.bridge = s.bridge ∧ t.refusals = s.refusals + 1) ∧
  ∀ (s : State) (reg : BitVec 9) (v : Word), s.sound = true → Reg.mayHold reg.toNat v = true →
    (encodeWord (.regWrite reg v)).toNat = 0x30000000 + reg.toNat ∧
    ∃ t, exec (.regWrite reg v) s = .next t ∧ t = { s.startOp with regs := t.regs } ∧ t.sound = true ∧
      t.word reg.toNat = v ∧ (reg = 464 → t.word 465 = 0) ∧
      ∀ n, n ≠ reg.toNat → ¬(reg = 464 ∧ n = 465) → t.word n = s.word n

/-- Which values a register may be given, for one register of each type and for the modes: the legal sets of 10 R56, R57. -/
def Obligations.LegalValuesByType : Prop :=
  ∀ v : Word,
    (Reg.mayHold Reg.config_TVM.num v = true ↔ v.toNat ≤ 1) ∧
    (Reg.mayHold Reg.lu_mode.num v = true ↔ v.toNat ≤ 6) ∧
    (Reg.mayHold Reg.fsm_state.num v = true ↔ v.toNat ≤ 10) ∧
    (Reg.mayHold Reg.fsm_errno.num v = true ↔ v.toNat ≤ 9) ∧
    (Reg.mayHold Reg.tm_skip.num v = true ↔ 0 ≤ v.toInt) ∧
    (Reg.mayHold Reg.const_R.num v = true ↔ F32.isFinite ⟨v⟩ = true ∧ F32.ge ⟨v⟩ F32.zero = true) ∧
    Reg.mayHold Reg.i_setpoint_current.num v = true ∧ Reg.mayHold Reg.lu_revol.num v = true

/-- Writing the same legal value twice leaves the state that writing it once leaves (20 R106). -/
def Obligations.RegWriteIsIdempotent : Prop :=
  ∀ (s t : State) (reg : BitVec 9) (v : Word), s.sound = true → Reg.mayHold reg.toNat v = true →
    exec (.regWrite reg v) s = .next t → exec (.regWrite reg v) t = .next t

/-- A REG_READ returns the value of the last write to that register (20 R108 item 2). -/
def Obligations.ReadAfterWrite : Prop :=
  ∀ (s t : State) (reg : BitVec 9) (v : Word), s.sound = true → Reg.mayHold reg.toNat v = true →
    exec (.regWrite reg v) s = .next t →
    ∃ u, exec (.regRead reg) t = .next u ∧ u.out.responses = t.startOp.out.responses ++ [v] ∧ u.regs = t.regs

/-! ### The ten requests -/

/-- Every REQ latches its state in `fsm_req`, whatever the gate will say of it, except that a pending HALT is not displaced;
no other register and nothing else changes; the same REQ again changes nothing (48 R487). -/
def Obligations.RequestLatch : Prop :=
  ∀ p ∈ requestRows, ∀ s : State, s.sound = true →
    encodeWord p.1 = 0x10000000 + p.2.code ∧
    ∃ t, exec p.1 s = .next t ∧ exec p.1 t = .next t ∧ t = { s.startOp with regs := t.regs } ∧
      t.word 466 = (if s.word 466 = FsmState.halt.code ∧ p.2 ≠ .halt then s.word 466 else p.2.code) ∧
      ∀ n, n ≠ 466 → t.word n = s.word n

/-- The gate accepts a request as 47 R431's table says, over the FSM's state and whether the lookup FSM is enabled; a request
for IDLE is no operation. -/
def Obligations.GateTable : Prop :=
  ∀ s : State,
    (∀ q ∈ [FsmState.zeroDrift, .powerStageTest, .adjustCurrent, .probeConstR, .probeConstL, .luInitiate],
      s.gate q = true ↔ s.word 464 = 0 ∧ s.word 320 = 0) ∧
    (∀ q ∈ [FsmState.luShutdown, .probeConstE, .probeConstJ], s.gate q = true ↔ s.word 464 = 0 ∧ s.word 320 ≠ 0) ∧
    s.gate .halt = true ∧ decodeWord 0x10000000 [] = .error .badRequest

/-- A pending request is consumed at the top of the FSM step (47 R430): a HALT enters HALT unless it runs already, keeping
`fsm_errno`; another request the gate accepts clears `fsm_errno` and enters its state; a rejected one is dropped. That it clears the code
of an electrical fault latched earlier in the same tick, too, is the model's choice (log entry 27). -/
def Obligations.RequestConsumption : Prop :=
  ∀ (s : State) (q : FsmState), s.sound = true → q ≠ .idle → s.word 466 = q.code →
    s.consumeRequest.word 466 = 0 ∧ State.agreesOff [(464, 469)] s s.consumeRequest ∧
    (q = .halt → s.consumeRequest.word 467 = s.word 467 ∧
      (s.word 464 ≠ FsmState.halt.code → s.consumeRequest.word 464 = FsmState.halt.code) ) ∧
    ((q = .halt ∧ s.word 464 ≠ FsmState.halt.code) ∨ (q ≠ .halt ∧ s.gate q = true) →
      s.consumeRequest.word 464 = q.code ∧ s.consumeRequest.word 465 = 0 ∧ s.consumeRequest.word 468 = 0 ∧
      s.consumeRequest.word 469 = 0) ∧
    (q ≠ .halt ∧ s.gate q = true → s.consumeRequest.word 467 = 0) ∧
    ((q = .halt ∧ s.word 464 = FsmState.halt.code) ∨ (q ≠ .halt ∧ s.gate q = false) →
      ∀ n, n ≠ 466 → s.consumeRequest.word n = s.word n)

/-! ### TICK -/

/-- The frame of TICK: it writes no register outside `tickRegs`, so no configuration register but `config_LU_SENSOR`, neither
`const_Zp` nor `const_Ja`, and no parameter but the current sensors' calibrations; it counts one cycle and leaves the rest of
the machine to the host (41 R200, 48 R481). For a supplied FN_PST, FN_ADJUST, FN_PROBE_R, FN_PROBE_L, FN_PROBE_E or FN_HFI
the frame is the model's choice: log entry 7 lets it write only the registers that the reference form writes, and no rule
says so. -/
def Obligations.TickFrame : Prop :=
  ∀ (s t : State) (fb : Feedback), s.sound = true → s.guardOpen = false → exec (.tick fb) s = .next t →
    State.agreesOff tickRegs s t ∧ t.params = s.params ∧ t.tick = s.tick + 1 ∧ t.tl = TickLocal.none ∧
    t.inbox = s.inbox ∧ t.guardOpen = false ∧ t.refusals = s.refusals ∧ t.out.responses = [] ∧ t.out.refused = []

/-- One TICK calls the duty sink at most once, and every call of a sink is in its range (30 R134, R141; 46 R407). For a supplied
FN_PST, FN_ADJUST, FN_PROBE_R, FN_PROBE_L or FN_PROBE_E this is the model's choice: log entry 7 drops a call outside that
contract. -/
def Obligations.TickEmitsAtMostOneDuty : Prop :=
  ∀ (s t : State) (fb : Feedback), s.sound = true → s.guardOpen = false → exec (.tick fb) s = .next t →
    t.out.dutyCalls ≤ 1 ∧ ∀ c ∈ t.out.sinks, SinkCall.ok (s.word 41) c = true

/-- `const_Ja` and `const_Zp` are changed only by a host write. 47 R448 says it of `const_Ja`. Of `const_Zp` the spec does not
say it: no rule writes it outside REG_WRITE. That no supplied configuration function writes either of them is the model's
choice, by the limits of log entry 7. -/
def Obligations.InertiaOnlyByHostWrite : Prop :=
  ∀ (i : Instr) (s t : State) (n : Nat), s.sound = true → n = 36 ∨ n = 37 → exec i s = .next t →
    t.word n ≠ s.word n → ∃ reg v, i = .regWrite reg v ∧ reg.toNat = n ∧ t.word n = v

/-- A TICK in IDLE with no request pending, the lookup FSM DISABLED, no postponed EKF step and no electrical fault completes:
it runs steps S1 to S5 only, emits nothing, and leaves every register but the feedback registers (41 R200, 47 R432). -/
def Obligations.IdleTickOnlyMeasures : Prop :=
  ∀ (s : State) (fb : Feedback), s.inv = true → s.word 464 = 0 → s.word 466 = 0 → s.word 320 = 0 → s.word 389 = 0 →
    s.faultFree fb = true →
    ∃ t, exec (.tick fb) s = .next t ∧ t = ((s.measured fb).tvmFilter).closeTick ∧ t.out = Outputs.none ∧
      t.bridge = s.bridge ∧ State.agreesOff [(256, 282)] s t

/-- A TICK answers a next state, whatever its feedback, in every state that meets the invariant in which nothing drives the
motor: the command FSM in IDLE or HALT with no request or a HALT pending, and the lookup FSM DISABLED, or in DETACHED before
its startup timer has elapsed (41 R200, R208; 42 R240; 47 R432, R449). -/
def Obligations.UndrivenTickCompletes : Prop :=
  ∀ (s : State) (fb : Feedback), s.inv = true → s.word 464 = 0 ∨ s.word 464 = FsmState.halt.code →
    s.word 466 = 0 ∨ s.word 466 = FsmState.halt.code →
    s.word 320 = 0 ∨ (s.word 320 = LuMode.detached.code ∧ (s.word 324).toNat < (s.word 81).toNat) →
    ∃ t, exec (.tick fb) s = .next t ∧ t.tick = s.tick + 1

/-- An electrical fault, over-current or over-voltage, enters HALT in its own tick when `HALT_SAME_TICK` is true (41 R204;
47 R449; 60 R500, R502, R504): the fault code is recorded unless an earlier fault's HALT is underway, the over-current's when
both trip; the lookup FSM is DISABLED, the duty is (0, 0, 0), the legs are in Z, the settle timer is armed, and nothing else
goes out. -/
def Obligations.ElectricalFaultHaltsSameTick : Prop :=
  ∀ (s : State) (fb : Feedback), s.inv = true → s.params.haltSameTick = true → s.word 464 ≠ FsmState.halt.code →
    (s.measured fb).overCurrent = true ∨ (s.measured fb).overVoltage = true →
    ∃ t, exec (.tick fb) s = .next t ∧
      t.word 464 = FsmState.halt.code ∧ t.word 465 = 1 ∧ t.word 466 = 0 ∧ t.word 468 = 0 ∧ t.word 469 = s.word 195 ∧
      t.word 467 = (if s.word 467 = 0 ∨ s.word 466 ≠ FsmState.halt.code then (s.measured fb).electricalFault.code
        else s.word 467) ∧
      t.word 320 = 0 ∧ t.word 288 = 0 ∧ t.word 289 = 0 ∧ t.word 290 = 0 ∧ t.word 291 = 7 ∧
      t.out.sinks = [.duty 0 0 0, .z 7] ∧ t.bridge = ⟨some ⟨0, 0, 0⟩, some 7⟩

/-- With `HALT_SAME_TICK` false an electrical fault is recorded at once, the over-current when both trip, but its HALT request
reaches `fsm_req` at the end of the tick: a TICK in IDLE with the lookup FSM DISABLED stays in IDLE, and the next one finds the
request (41 R204; 60 R500, R502; 70 R563). -/
def Obligations.ElectricalFaultDeferred : Prop :=
  ∀ (s : State) (fb : Feedback), s.inv = true → s.params.haltSameTick = false → s.word 464 = 0 → s.word 466 = 0 →
    s.word 320 = 0 → s.word 389 = 0 →
    (s.measured fb).overCurrent = true ∨ (s.measured fb).overVoltage = true →
    ∃ t, exec (.tick fb) s = .next t ∧ t.word 464 = 0 ∧ t.word 466 = FsmState.halt.code ∧
      t.word 467 = (s.measured fb).electricalFault.code ∧ t.out.sinks = []

/-- HALT phase 1 (47 R449, 60 R507, R508): with any request and any fault it counts, and returns to IDLE when the settle timer
ends; it emits nothing, and the lookup FSM stays DISABLED. -/
def Obligations.HaltSettlesToIdle : Prop :=
  ∀ (s : State) (fb : Feedback), s.inv = true → s.word 464 = FsmState.halt.code → s.word 465 = 1 → s.word 320 = 0 →
    s.word 389 = 0 →
    ∃ t, exec (.tick fb) s = .next t ∧ t.out.sinks = [] ∧ t.bridge = s.bridge ∧ t.word 320 = 0 ∧
      (if (s.i Reg.tm_end).sle (I32.satInc (s.word 468)) then
        t.word 464 = 0 ∧ t.word 465 = 0 ∧ t.word 468 = 0 ∧ t.word 469 = 0
      else
        t.word 464 = FsmState.halt.code ∧ t.word 465 = 1 ∧ t.word 468 = I32.satInc (s.word 468) ∧
          t.word 469 = s.word 469)

/-- A TICK that consumes REQ_LU_INITIATE in IDLE with the lookup FSM DISABLED ends in IDLE and in DETACHED with `lu_tm` = 1,
the legs in Z first of all, when the startup timer is set and no electrical fault is present (47 R450; 42 R230, R240). -/
def Obligations.InitiateEntersDetached : Prop :=
  ∀ (s : State) (fb : Feedback), s.inv = true → s.word 464 = 0 → s.word 466 = FsmState.luInitiate.code →
    s.word 320 = 0 → s.word 81 ≠ 0 → s.faultFree fb = true →
    ∃ t, exec (.tick fb) s = .next t ∧ t.word 464 = 0 ∧ t.word 465 = 0 ∧ t.word 320 = LuMode.detached.code ∧
      t.word 324 = 1 ∧ t.word 291 = 7 ∧ t.out.sinks.head? = some (.z 7)

/-- A TICK that consumes REQ_LU_SHUTDOWN in IDLE with the lookup FSM enabled is HALT's first tick: the lookup FSM is DISABLED,
the duty is (0, 0, 0), the legs are in Z and the settle timer is armed (47 R431, R449, R451; 48 R495). -/
def Obligations.ShutdownStopsTheMotor : Prop :=
  ∀ (s : State) (fb : Feedback), s.inv = true → s.word 464 = 0 → s.word 466 = FsmState.luShutdown.code →
    s.word 320 ≠ 0 → s.faultFree fb = true →
    ∃ t, exec (.tick fb) s = .next t ∧ t.word 464 = FsmState.halt.code ∧ t.word 465 = 1 ∧ t.word 466 = 0 ∧
      t.word 467 = 0 ∧ t.word 468 = 0 ∧ t.word 469 = s.word 195 ∧ t.word 320 = 0 ∧
      t.out.sinks = [.duty 0 0 0, .z 7]

/-- An accepted PROBE_CONST_J only clears `fsm_errno` and returns to IDLE in the same step; rejected, it only leaves the slot
empty (47 R430, R448). That it clears the code of an electrical fault latched earlier in the same tick, too, is the model's
choice (log entry 27). -/
def Obligations.InertiaProbeDoesNothing : Prop :=
  ∀ s : State, s.sound = true → s.word 464 = 0 → s.word 466 = FsmState.probeConstJ.code →
    (∀ n, n ∉ [464, 465, 466, 467, 468, 469] → s.fsmStep.word n = s.word n) ∧ s.fsmStep.out = s.out ∧
    s.fsmStep.word 464 = 0 ∧ s.fsmStep.word 466 = 0 ∧
    (if s.word 320 ≠ 0 then
      s.fsmStep.word 465 = 0 ∧ s.fsmStep.word 467 = 0 ∧ s.fsmStep.word 468 = 0 ∧ s.fsmStep.word 469 = 0
    else
      s.fsmStep.word 465 = s.word 465 ∧ s.fsmStep.word 467 = s.word 467 ∧ s.fsmStep.word 468 = s.word 468 ∧
        s.fsmStep.word 469 = s.word 469)

/-! ### The lookup FSM over whole ticks -/

/-- No TICK leaves DETACHED for a driven mode before the startup timer has elapsed: the lookup FSM stays in DETACHED, or it
is DISABLED by HALT (42 R240; 47 R449). For a supplied configuration function, which writes no `lu_mode`, this is the
model's choice (log entry 7). -/
def Obligations.DetachedUntilStartupTimer : Prop :=
  ∀ (s t : State) (fb : Feedback), s.inv = true → s.word 320 = LuMode.detached.code →
    (s.word 324).toNat < (s.word 81).toNat → exec (.tick fb) s = .next t →
    t.word 320 = LuMode.detached.code ∨ (t.word 320 = 0 ∧ t.word 464 = FsmState.halt.code)

/-- The LOCKED zone is left only by LU_INITIATE, and a locked DETACHED stays DETACHED unless the lookup FSM is DISABLED
(42 R240; 43 R285, R286). For a supplied configuration function, which writes neither the zone nor `lu_mode`, this is the
model's choice (log entry 7). -/
def Obligations.LockedZoneStays : Prop :=
  ∀ (s t : State) (fb : Feedback), s.inv = true → s.word 347 = Zone.locked.code →
    s.word 464 ≠ FsmState.luInitiate.code → s.word 466 ≠ FsmState.luInitiate.code → exec (.tick fb) s = .next t →
    t.word 347 = Zone.locked.code ∧
    (s.word 320 = LuMode.detached.code → t.word 320 = LuMode.detached.code ∨ t.word 320 = 0)

/-- The zone climbs one step at a time: no TICK takes it from NONE, or from LOCKED, to HIGH (43 R285, R286). For a supplied
configuration function, which does not write the zone, this is the model's choice (log entry 7). -/
def Obligations.ZoneNeverSkipsToHigh : Prop :=
  ∀ (s t : State) (fb : Feedback), s.inv = true → s.word 347 = Zone.none.code ∨ s.word 347 = Zone.locked.code →
    exec (.tick fb) s = .next t → t.word 347 ≠ Zone.high.code

/-! ### Faults -/

/-- Raising a fault records its code unless an earlier fault's HALT is underway, and requests HALT: in the slot, or in the
tick-local latch when the request is deferred; nothing else changes (60 R500). -/
def Obligations.RaiseKeepsTheFirstCause : Prop :=
  ∀ (s : State) (code : Errno) (early : Bool), s.sound = true →
    State.agreesOff [(466, 467)] s (s.raise code early) ∧
    s.raise code early = { s with regs := (s.raise code early).regs, tl := (s.raise code early).tl } ∧
    (s.raise code early).word 467 =
      (if s.word 467 = 0 ∨ ¬(s.word 466 = FsmState.halt.code ∨ s.tl.faultLatch = true ∨ s.word 464 = FsmState.halt.code)
        then code.code else s.word 467) ∧
    (if s.params.haltSameTick = false ∧ early = true then
      (s.raise code early).word 466 = s.word 466 ∧ (s.raise code early).tl = { s.tl with faultLatch := true }
    else (s.raise code early).word 466 = FsmState.halt.code ∧ (s.raise code early).tl = s.tl)

/-- An invalid Hall code counts and raises SENSOR_HALL_FAULT with the tenth in a row, which also clears the sensor selection;
before that only the counter and the coasting frame change (44 R323). -/
def Obligations.HallFaultOnTenthInvalidCode : Prop :=
  ∀ s : State, s.sound = true → ((s.word Reg.fb_HS.num).toNat = 0 ∨ 7 ≤ (s.word Reg.fb_HS.num).toNat) →
    s.hallStep.word 403 = I32.satInc (s.word 403) ∧
    (if (s.word 403).toNat < 9 then State.agreesOff [(400, 401), (403, 403)] s s.hallStep
    else s.hallStep.word 4 = 0 ∧ s.hallStep.word 466 = FsmState.halt.code ∧
      State.agreesOff [(4, 4), (400, 401), (403, 403), (466, 467)] s s.hallStep ∧
      (s.word 467 = 0 → s.hallStep.word 467 = Errno.sensorHallFault.code))

/-! ### Measurement -/

/-- Intake moves the four sensor words as delivered, an invalid Hall word too, and changes nothing else (41 R201). -/
def Obligations.IntakeStoresAsDelivered : Prop :=
  ∀ (s : State) (fb : Feedback), s.sound = true →
    (s.intake fb).word Reg.fb_HS.num = fb.hall ∧ (s.intake fb).word Reg.fb_EP.num = fb.eabi ∧
    (s.intake fb).word Reg.fb_SIN.num = fb.sine.bits ∧ (s.intake fb).word Reg.fb_COS.num = fb.cosine.bits ∧
    s.intake fb = { s with regs := (s.intake fb).regs } ∧
    ∀ n, n ∉ [Reg.fb_HS.num, Reg.fb_EP.num, Reg.fb_SIN.num, Reg.fb_COS.num] → (s.intake fb).word n = s.word n

/-- The rebuilding of a missing phase current (41 R203). With two sensors C is the negated sum of A and B. With three sensors
and two or three valid samples, THREE_PHASE rebuilds the one phase whose sample was invalid from the others, and TWO_PHASE
only C; with three valid samples nothing is rebuilt. With fewer than two valid samples the three currents are those of the
tick before, in either topology: 92 D59, which the model follows against R203's own "as measured" (the model's choice, log
entry 20). A negated sum that is a NaN has drawn bits. -/
def Obligations.MissingPhaseRebuilt : Prop :=
  ∀ s old : State, s.sound = true →
    let t := s.rebuild old
    let valid := (s.word 292, s.word 293, s.word 294)
    let rebuilt := fun (r x y : Reg) =>
      ((((s.f x).add (s.f y)).neg.isNaN = false → t.word r.num = ((s.f x).add (s.f y)).neg.bits) ∧
        State.agreesOff [(r.num, r.num)] s t)
    s.reconstruct old = t.clarkeCurrents ∧
    (s.word 1 = 0 ∨ s.word 1 = 2 → rebuilt Reg.fb_iC Reg.fb_iA Reg.fb_iB) ∧
    (s.word 1 = 1 ∨ s.word 1 = 3 →
      (valid = (0, 1, 1) → (s.word 0 = 0 → rebuilt Reg.fb_iA Reg.fb_iB Reg.fb_iC) ∧ (s.word 0 = 1 → t = s)) ∧
      (valid = (1, 0, 1) → (s.word 0 = 0 → rebuilt Reg.fb_iB Reg.fb_iA Reg.fb_iC) ∧ (s.word 0 = 1 → t = s)) ∧
      (valid = (1, 1, 0) → rebuilt Reg.fb_iC Reg.fb_iA Reg.fb_iB) ∧
      (valid = (1, 1, 1) → t = s) ∧
      (valid ∈ [((0 : Word), (0 : Word), (0 : Word)), (1, 0, 0), (0, 1, 0), (0, 0, 1)] →
        (∀ n ∈ [256, 257, 258], t.word n = old.word n) ∧ State.agreesOff [(256, 258)] s t))

/-- The terminal-voltage filter judges the samples by the previous tick's flags, shifts the history in every TVM tick, and
keeps the averages when the samples were not clean (41 R205). -/
def Obligations.TerminalFilterShifts : Prop :=
  ∀ s : State, s.sound = true →
    (s.word 2 = 0 → s.tvmFilter.word Reg.tvm_valid.num = 0 ∧
      ∀ n, n ≠ Reg.tvm_valid.num → s.tvmFilter.word n = s.word n) ∧
    (s.word 2 = 1 →
      s.tvmFilter.word Reg.tvm_valid.num = (if s.word 295 = 1 ∧ s.word 296 = 1 ∧ s.word 297 = 1 then 1 else 0) ∧
      (∀ p < 3, s.tvmFilter.word (Reg.tvm_hist (2 * p + 1)).num = s.word (Reg.tvm_hist (2 * p)).num) ∧
      s.tvmFilter.word (Reg.tvm_hist 0).num = s.word Reg.fb_uA.num ∧
      s.tvmFilter.word (Reg.tvm_hist 2).num = s.word Reg.fb_uB.num ∧
      s.tvmFilter.word (Reg.tvm_hist 4).num = s.word Reg.fb_uC.num ∧
      (s.tvmFilter.word Reg.tvm_valid.num = 0 →
        ∀ r ∈ [Reg.tvm_A, Reg.tvm_B, Reg.tvm_C, Reg.tvm_X, Reg.tvm_Y], s.tvmFilter.word r.num = s.word r.num))

/-- `sext_16` reads bits [15:0] as a signed 16-bit integer (40 R189, with its corner cases and its example). -/
def Obligations.SignExtension16 : Prop :=
  (∀ v : I32, (I32.sext16 v).toInt =
    if v.toNat % 65536 < 32768 then (v.toNat % 65536 : Int) else (v.toNat % 65536 : Int) - 65536) ∧
  (I32.sext16 0xFFFF).toInt = -1 ∧ (I32.sext16 0x8000).toInt = -32768 ∧ (I32.sext16 (5 - 65534)).toInt = 7

/-- A step of a configured encoder keeps its count in `[0, N)`, marks it initialized, and changes nothing but the encoder's
registers; an unconfigured one changes nothing (44 R326-R329). -/
def Obligations.EncoderCountInRevolution : Prop :=
  ∀ s : State, s.sound = true →
    (s.word Reg.eabi_EPPR.num = 0 → s.abiStep = s) ∧
    (s.word Reg.eabi_EPPR.num ≠ 0 →
      0 ≤ (s.abiStep.i Reg.eabi_count).toInt ∧
      (s.abiStep.i Reg.eabi_count).toInt < (s.i Reg.eabi_EPPR).toInt ∧
      s.abiStep.word Reg.eabi_init.num = 1 ∧ s.abiStep.tl = s.tl ∧
      State.agreesOff [(408, 416)] s s.abiStep)

/-- The encoder's count and turns together are the old ones plus the delta, as long as they do not wrap (44 R326). -/
def Obligations.EncoderUnwrapIsExact : Prop :=
  ∀ (s : State) (d : I32), s.sound = true → s.word Reg.eabi_EPPR.num ≠ 0 →
    (s.i Reg.eabi_count + d).toInt = (s.i Reg.eabi_count).toInt + d.toInt →
    ∃ q : Int, s.abiAdvance d = s.abiUnwrap d (s.i Reg.eabi_count + d) ((s.abiAdvance d).i Reg.eabi_count) ∧
      (s.i Reg.eabi_count).toInt + d.toInt = q * (s.i Reg.eabi_EPPR).toInt + ((s.abiAdvance d).i Reg.eabi_count).toInt ∧
      (s.abiAdvance d).i Reg.eabi_revol = s.i Reg.eabi_revol + BitVec.ofInt 32 q

/-- Only a crossing between quadrants 1 and 2 counts a resolver revolution, and only once the tracker is initialized; the
quadrant is stored in every step, and nothing else changes (44 R332). -/
def Obligations.ResolverCountsAtHalfTurn : Prop :=
  ∀ s : State, s.sound = true →
    s.sincosQuadrant.word Reg.sincos_quad.num = s.sincosQuad ∧
    s.sincosQuadrant.word Reg.sincos_revol.num =
      (if s.word Reg.sincos_init.num = 1 ∧ s.word Reg.sincos_quad.num = 1 ∧ s.sincosQuad = 2 then
        s.word Reg.sincos_revol.num + 1
      else if s.word Reg.sincos_init.num = 1 ∧ s.word Reg.sincos_quad.num = 2 ∧ s.sincosQuad = 1 then
        s.word Reg.sincos_revol.num - 1
      else s.word Reg.sincos_revol.num) ∧
    ∀ n, n ≠ Reg.sincos_quad.num → n ≠ Reg.sincos_revol.num → s.sincosQuadrant.word n = s.word n

/-! ### Estimation -/

/-- The zone classifier's table (43 R285; its pseudocode, not 92 D36, log entry 20), over the two comparisons of the
speed; a NaN speed holds NONE and HIGH and resets UNCERTAIN's counter. -/
def Obligations.ZoneStepTable : Prop :=
  ∀ s : State, s.sound = true →
    let up := s.zoneFilter.zoneAbove
    let down := s.zoneFilter.zoneBelow
    let n := I32.satInc (s.word Reg.flux_zone_tm.num)
    (s.word 347 = Zone.locked.code → s.zoneStep = s) ∧
    (s.word 347 = Zone.none.code →
      s.zoneStep.word 347 = (if up then Zone.uncertain.code else Zone.none.code) ∧
      s.zoneStep.word 349 = (if up then 0 else s.word 349)) ∧
    (s.word 347 = Zone.uncertain.code →
      s.zoneStep.word 347 =
        (if up then (if (s.i Reg.tm_zone).sle n then Zone.high.code else Zone.uncertain.code)
        else if down then Zone.none.code else Zone.uncertain.code) ∧
      s.zoneStep.word 349 = (if up then n else 0)) ∧
    (s.word 347 = Zone.high.code →
      s.zoneStep.word 347 = (if down then Zone.uncertain.code else Zone.high.code) ∧
      s.zoneStep.word 349 = (if down then 0 else s.word 349)) ∧
    State.agreesOff [(347, 349)] s s.zoneStep ∧
    ((s.f Reg.flux_wS).isNaN = true → up = false ∧ down = false)

/-- The lock guard's flip turns the frame by π, negates the flux and current states, reverses the speed, clears the EKF's
covariance and gain and the bare speed, and takes the zone from HIGH to UNCERTAIN (43 R288). A NaN that is negated stays a NaN,
of drawn bits. -/
def Obligations.LockGuardFlip : Prop :=
  ∀ s : State, s.sound = true →
    (s.lockFlipped = false → s.lockCheck = s) ∧
    (s.lockFlipped = true →
      s.lockCheck.word Reg.flux_wS.num = (s.f Reg.flux_wS).neg.bits ∧
      (∀ i < 2, ∀ r ∈ [Reg.flux_F i, Reg.flux_X i, Reg.kalman_X i],
        if (s.f r).isNaN then (s.lockCheck.f r).isNaN = true else s.lockCheck.f r = (s.f r).neg) ∧
      (∀ n < 15, s.lockCheck.word (Reg.kalman_P n).num = 0) ∧ (∀ n < 10, s.lockCheck.word (Reg.kalman_K n).num = 0) ∧
      s.lockCheck.word Reg.flux_lpf_bare.num = 0 ∧
      s.lockCheck.word 347 = (if s.word 347 = Zone.high.code then Zone.uncertain.code else s.word 347) ∧
      State.agreesOff [(344, 347), (350, 351), (353, 353), (360, 386)] s s.lockCheck)

/-- A degenerate innovation zeroes the EKF's gain and leaves the covariance, and everything else, as predicted (43 R278). -/
def Obligations.DegenerateInnovation : Prop :=
  ∀ s : State, s.sound = true → (s.innovationDet.gt F32.zero = false ∨ s.innovationDet.isFinite = false) →
    (∀ n < 10, s.gainUpdate.word (Reg.kalman_K n).num = 0) ∧ State.agreesOff [(375, 384)] s s.gainUpdate

/-- The blend snaps to a candidate within the slew limit, keeping its bits, turns the frame by the limit toward one beyond
it, and takes the candidate's speed without a limit (42 R234). -/
def Obligations.BlendLimitsTheFrame : Prop :=
  ∀ (s : State) (c : Candidate), s.sound = true → s.candidate = some c →
    let e := s.params.rel (s.vec c.frame) (s.vec Reg.lu_F)
    let lim := (s.f Reg.lu_rate).mul (s.f Reg.dT)
    let turned := s.params.rot (s.vec Reg.lu_F) (e.signF.mul lim)
    (s.blend c).word Reg.lu_wS.num = s.word c.speed.num ∧
    (e.abs.le lim = true → ∀ i < 2, (s.blend c).word (Reg.lu_F i).num = s.word (c.frame i).num) ∧
    (e.abs.le lim = false →
      (turned.v0.isNaN = false → (s.blend c).word 321 = turned.v0.bits) ∧
      (turned.v1.isNaN = false → (s.blend c).word 322 = turned.v1.bits)) ∧
    State.agreesOff [(321, 323)] s (s.blend c)

/-- The revolution counters: `lu_revol` follows the wraps of the frame at ±π, and the total takes a change only past the guard
of 4 (42 R235). -/
def Obligations.RevolutionGuard : Prop :=
  ∀ s : State, s.sound = true →
    let r := s.word Reg.lu_revol.num + s.wrapStep
    let d : I32 := r - s.word Reg.lu_revob.num
    s.revolutions.word Reg.lu_revol.num = r ∧
    (if 4 < d.toInt ∨ d.toInt < -4 then
      s.revolutions.word Reg.lu_total_revol.num = s.word Reg.lu_total_revol.num + BitVec.ofInt 32 d.toInt.natAbs ∧
      s.revolutions.word Reg.lu_revob.num = r
    else
      s.revolutions.word Reg.lu_total_revol.num = s.word Reg.lu_total_revol.num ∧
      s.revolutions.word Reg.lu_revob.num = s.word Reg.lu_revob.num) ∧
    ∀ n, n ∉ [Reg.lu_revol.num, Reg.lu_revob.num, Reg.lu_total_revol.num] → s.revolutions.word n = s.word n

/-! ### The loops -/

/-- In FORCED the speed loop is bypassed: the track follows the ramp and its output is 0 (45 R372). -/
def Obligations.ForcedBypassesSpeedLoop : Prop :=
  ∀ s : State, s.sound = true →
    s.forcedBypass.word Reg.s_track.num = s.word Reg.forced_wS.num ∧ s.forcedBypass.word Reg.s_iQ.num = 0 ∧
    s.forcedBypass = { s with regs := s.forcedBypass.regs } ∧
    (∀ n, n ≠ Reg.s_track.num → n ≠ Reg.s_iQ.num → s.forcedBypass.word n = s.word n) ∧
    (s.word 320 = LuMode.forced.code → s.speedLoop = s.forcedBypass)

/-- The injection flag is consumed by every current loop, and so added once (45 R361). -/
def Obligations.InjectionConsumedOnce : Prop :=
  ∀ s : State, s.sound = true →
    s.currentLoop.word Reg.hfi_inject.num = 0 ∧
    let u := (s.outputClamp s.piVoltage).v0
    let d := if s.word Reg.hfi_inject.num = 1 then u.add ((s.f Reg.hfi_amplitude).mul (s.f (Reg.hfi_wave 0))) else u
    (d.isNaN = false → s.command.word Reg.vsi_D.num = d.bits) ∧ s.command.word Reg.hfi_inject.num = 0

/-- What the current loop's rules guarantee of it (45 R363). The tracked current of each axis takes its setpoint when no
slew rate is set, and else moves toward it, by the difference where that is within the slew rate of a tick, by the slew rate
beyond it (R357, 40 R184). Each integral adds the gained error of the tracked current (R358), is cut to `±lim` with
`lim = i_headroom·fb_uS` (R359), and so lies within them when `lim` is not negative. A computed NaN has drawn bits. That iD
and iQ converge is a claim about a plant, which is outside the model (R363). -/
def Obligations.CurrentTrackedAndIntegralBounded : Prop :=
  ∀ s : State, s.sound = true →
    let t := s.currentLoop
    let lim := (s.f Reg.i_headroom).mul (s.f Reg.fb_uS)
    let step := (s.f Reg.i_slew_rate).mul (s.f Reg.dT)
    (∀ p ∈ [(Reg.i_track_D, Reg.i_sp_D), (Reg.i_track_Q, Reg.i_sp_Q)],
      let d := (t.f p.2).sub (s.f p.1)
      ((s.f Reg.i_slew_rate).eq F32.zero = true → t.word p.1.num = t.word p.2.num) ∧
      ((s.f Reg.i_slew_rate).eq F32.zero = false →
        let m := if d.gt step then step else if d.lt step.neg then step.neg else d
        ((s.f p.1).add m).isNaN = false → t.word p.1.num = ((s.f p.1).add m).bits)) ∧
    (∀ p ∈ [(Reg.i_integral_D, Reg.i_track_D, Reg.lu_iD), (Reg.i_integral_Q, Reg.i_track_Q, Reg.lu_iQ)],
      let v := (s.f p.1).add ((s.f Reg.i_gain_I).mul ((t.f p.2.1).sub (s.f p.2.2)))
      let c := if v.gt lim then lim else if v.lt lim.neg then lim.neg else v
      (c.isNaN = false → t.word p.1.num = c.bits) ∧
      (lim.ge F32.zero = true → (t.f p.1).isNaN = v.isNaN ∧
        (v.isNaN = false → (t.f p.1).ge lim.neg = true ∧ (t.f p.1).le lim = true))) ∧
    State.agreesOff [(309, 310), (392, 392), (432, 442)] s t

/-! ### The output -/

/-- The minimum-pulse rule leaves every count in `[0, res]` and no pulse or gap narrower than `mp` (46 R404), for every
resolution, minimum pulse and clearance zone. -/
def Obligations.MinimumPulse : Prop :=
  ∀ (lowside : Bool) (res mp cz : I32) (d : Legs I32), 0 ≤ mp.toInt →
    (∀ v ∈ [d.a, d.b, d.c], 0 ≤ v.toInt ∧ v.toInt ≤ res.toInt) →
    ∀ v ∈ [(pulseShift lowside res mp cz d).a, (pulseShift lowside res mp cz d).b, (pulseShift lowside res mp cz d).c],
      v = 0 ∨ v = res ∨ (mp.toInt ≤ v.toInt ∧ v.toInt ≤ res.toInt - mp.toInt)

/-- The common shift makes two legs samplable: when an adjacent pair of the sorted legs fits the window, at least two shifted
legs lie in it (46 R404). -/
def Obligations.CommonShiftSamplesTwoLegs : Prop :=
  ∀ (w : PulseWindow) (d : Legs I32), 0 ≤ w.lo.toInt → (∀ v ∈ [d.a, d.b, d.c], 0 ≤ v.toInt) →
    ((sort3 d).b.toInt - (sort3 d).a.toInt ≤ w.hi.toInt - w.lo.toInt ∨
      (sort3 d).c.toInt - (sort3 d).b.toInt ≤ w.hi.toInt - w.lo.toInt) →
    w.hasTwo ⟨d.a + w.shift d, d.b + w.shift d, d.c + w.shift d⟩ = true

/-- Bootstrap retention of one leg (46 R405): in the forced recharge window the duty is held below full and the window
shortens; a full leg counts, and past `tm_bootstrap` opens a window of `tm_recharge` duties; any other leg clears its count. -/
def Obligations.BootstrapRecharge : Prop :=
  ∀ (s : State) (i : Nat) (v : I32), s.sound = true → i < 3 →
    let res := s.i Reg.pwm_resolution
    let bst := I32.satInc (s.i (Reg.vsi_bst i))
    let t := s.bootLeg i v
    (if s.word (Reg.vsi_rch i).num ≠ 0 then
      s.bootDuty i v = I32.min v (res - I32.max (s.i Reg.minimal_pulse) 1) ∧
      t.word (Reg.vsi_rch i).num = s.word (Reg.vsi_rch i).num - 1 ∧ t.word (Reg.vsi_bst i).num = 0
    else s.bootDuty i v = v ∧
      (if s.word Reg.tm_bootstrap.num ≠ 0 ∧ v = res then
        (if (s.i Reg.tm_bootstrap).slt bst then
          t.word (Reg.vsi_rch i).num = s.word Reg.tm_recharge.num ∧ t.word (Reg.vsi_bst i).num = 0
        else t.word (Reg.vsi_rch i).num = 0 ∧ t.word (Reg.vsi_bst i).num = bst)
      else t.word (Reg.vsi_rch i).num = 0 ∧ t.word (Reg.vsi_bst i).num = 0)) ∧
    ∀ n, n ≠ (Reg.vsi_rch i).num → n ≠ (Reg.vsi_bst i).num → t.word n = s.word n

/-- With a minimum pulse within the resolution, `pm_voltage` never gives the sink a count it does not take (46 R403-R405, R407):
with a minimum pulse or a clearance zone, whose rule clamps the counts; and without either, where R404 returns the counts as
they are, with a resolution that binary32 represents, as it does every one up to 2^24. -/
def Obligations.VoltageCountsInRange : Prop :=
  ∀ (s : State) (u F : Vec2), s.sound = true → s.tl.unmodelled = none → s.word Reg.pwm_resolution.num ≠ 0 →
    (s.word Reg.minimal_pulse.num).toNat ≤ (s.word Reg.pwm_resolution.num).toNat →
    (s.word Reg.minimal_pulse.num ≠ 0 ∨ s.word Reg.clearance_zone.num ≠ 0 ∨
      (s.word Reg.pwm_resolution.num).toNat ≤ 16777216) →
    (s.pmVoltage u F).tl.unmodelled ≠ some .dutyOutOfRange

/-- With `pwm_resolution` = 0 every duty is 0 (46 R403): `pm_voltage` outside a recharge window emits (0, 0, 0), unless its
voltage or a duty ratio is no number. -/
def Obligations.ZeroResolutionZeroDuty : Prop :=
  ∀ (s : State) (u F : Vec2), s.sound = true → s.tl.unmodelled = none → s.tl.emitted = false →
    s.word Reg.pwm_resolution.num = 0 → (∀ i < 3, s.word (Reg.vsi_rch i).num = 0) →
    let t := s.pmVoltage u F
    (t.tl.unmodelled = none →
      t.out.sinks = s.out.sinks ++ [.duty 0 0 0] ∧ t.word 288 = 0 ∧ t.word 289 = 0 ∧ t.word 290 = 0) ∧
    (t.tl.unmodelled = some .nonFiniteVoltage ↔ u.isFinite = false) ∧
    (t.tl.unmodelled = none ∨ t.tl.unmodelled = some .nonFiniteVoltage ∨ t.tl.unmodelled = some .floorDomain)

/-- The duty sink's contract: the first in-range duty of a tick goes out and is stored with its flags, nothing else changing;
a count out of range, or a second duty, is no operation the sink takes (46 R406, R407). -/
def Obligations.DutySinkContract : Prop :=
  ∀ (s : State) (d : Legs I32), s.sound = true →
    let inRange := ∀ v ∈ [d.a, d.b, d.c], 0 ≤ v.toInt ∧ v.toInt ≤ (s.word 41).toInt
    (inRange → s.tl.emitted = false →
      (s.emitDuty d).out.sinks = s.out.sinks ++ [.duty d.a d.b d.c] ∧ (s.emitDuty d).bridge.duty = some d ∧
      (s.emitDuty d).word 288 = d.a ∧ (s.emitDuty d).word 289 = d.b ∧ (s.emitDuty d).word 290 = d.c ∧
      (s.emitDuty d).tl = { s.tl with emitted := true } ∧
      State.agreesOff [(288, 290), (292, 300)] s (s.emitDuty d)) ∧
    (¬ inRange → s.emitDuty d = s.poison .dutyOutOfRange) ∧
    (inRange → s.tl.emitted = true → s.emitDuty d = s.poison .dutyTwice)

/-- The validity flags of every leg, from its duty (46 R406). -/
def Obligations.ClassifyFlags : Prop :=
  ∀ s : State, s.sound = true →
    let res := s.i Reg.pwm_resolution
    let cz := s.i Reg.clearance_zone
    (∀ i < 3,
      let v := s.i (Reg.vsi_DC i)
      let low := res - v
      let edge := (0 : I32).slt low ∧ low.slt cz
      s.classify.word (Reg.vsi_CF i).num = (if edge then 1 else 0) ∧
      s.classify.word (Reg.vsi_IF i).num =
        (if s.word Reg.config_IFB.num = 2 ∨ s.word Reg.config_IFB.num = 3 then
          (if (I32.max cz 1).sle low then 1 else 0)
        else if edge then 0 else 1) ∧
      s.classify.word (Reg.vsi_UF i).num =
        (if v = 0 ∨ v = res ∨ (cz.sle v ∧ v.sle (res - cz)) then 1 else 0)) ∧
    s.classify = { s with regs := s.classify.regs } ∧ State.agreesOff [(292, 300)] s s.classify

/-- The Z sink: the mask goes out and is stored, and the flags of the legs held in Z are set; mask 0 changes no flag, and
nothing else changes (46 R408). -/
def Obligations.ZMaskFlags : Prop :=
  ∀ (s : State) (m : Word), s.sound = true → m.toNat < 8 →
    (s.emitZ m).out = { s.out with sinks := s.out.sinks ++ [.z m] } ∧ (s.emitZ m).bridge = { s.bridge with z := some m } ∧
    (s.emitZ m).word Reg.vsi_Z.num = m ∧
    (∀ i < 3,
      (s.emitZ m).word (Reg.vsi_IF i).num = (if m.getLsbD i then 1 else s.word (Reg.vsi_IF i).num) ∧
      (s.emitZ m).word (Reg.vsi_UF i).num = (if m.getLsbD i then 1 else s.word (Reg.vsi_UF i).num) ∧
      (s.emitZ m).word (Reg.vsi_CF i).num = (if m.getLsbD i then 0 else s.word (Reg.vsi_CF i).num)) ∧
    s.emitZ m = { s with regs := (s.emitZ m).regs, out := (s.emitZ m).out, bridge := (s.emitZ m).bridge } ∧
    State.agreesOff [(291, 300)] s (s.emitZ m)

/-! ### The procedures -/

/-- ZERO_DRIFT with a drift beyond the tolerance, or not finite, stores no offset and raises ZERO_DRIFT_FAULT; with no samples
it changes nothing and ends in HALT; else each measured phase's offset is lowered by its mean, where the difference is no NaN,
and it ends in HALT (47 R441). -/
def Obligations.ZeroDriftFaultStoresNothing : Prop :=
  ∀ s : State, s.sound = true →
    (s.word Reg.tm_probe.num = 0 →
      s.zdFinish.word 464 = FsmState.halt.code ∧ State.agreesOff [(464, 465), (468, 469)] s s.zdFinish) ∧
    (s.word Reg.tm_probe.num ≠ 0 → s.driftBad = true →
      s.zdFinish = s.raise .zeroDriftFault false ∧ s.zdFinish.word 466 = FsmState.halt.code ∧
      State.agreesOff [(466, 467)] s s.zdFinish) ∧
    (s.word Reg.tm_probe.num ≠ 0 → s.driftBad = false →
      let stored := fun (r : Reg) (i : Nat) =>
        ((s.f r).sub ((s.f (Reg.fsm_acc i)).div (F32.ofI32 (s.i Reg.tm_probe))))
      s.zdFinish.word 464 = FsmState.halt.code ∧ s.zdFinish.word 467 = s.word 467 ∧
      (∀ p ∈ [(Reg.adjust_IA 0, 0), (Reg.adjust_IB 0, 1)],
        (stored p.1 p.2).isNaN = false → s.zdFinish.word p.1.num = (stored p.1 p.2).bits) ∧
      (if s.word Reg.config_IFB.num = 1 ∨ s.word Reg.config_IFB.num = 3 then
        (stored (Reg.adjust_IC 0) 2).isNaN = false → s.zdFinish.word 52 = (stored (Reg.adjust_IC 0) 2).bits
      else s.zdFinish.word 52 = s.word 52) ∧
      State.agreesOff [(48, 48), (50, 50), (52, 52), (464, 465), (468, 469)] s s.zdFinish)

/-- The power-stage patterns of the reference form `FN_PST` (an OPEN function, 00 R8, R11; log entry 7): 0x1FF is healthy and
ends in HALT without a fault, 0x111 is no motor, every other pattern is a power-stage fault; the state is left only through
the fault's HALT request (47 R442). -/
def Obligations.PowerStagePatterns : Prop :=
  ∀ s : State, s.sound = true →
    (s.word 486 = 0x1FF → s.pstClassify.word 464 = FsmState.halt.code ∧ s.pstClassify.word 465 = 0 ∧
      s.pstClassify.word 466 = s.word 466 ∧ s.pstClassify.word 467 = s.word 467) ∧
    (s.word 486 = 0x111 → s.pstClassify = s.raise .noMotorConnected false) ∧
    (s.word 486 ≠ 0x1FF → s.word 486 ≠ 0x111 → s.pstClassify = s.raise .powerStageFault false) ∧
    (s.word 486 ≠ 0x1FF → s.pstClassify.word 466 = FsmState.halt.code ∧ s.pstClassify.word 464 = s.word 464) ∧
    State.agreesOff [(464, 469)] s s.pstClassify
end

