-- ==== Sys2Proof/Laws/Decode.lean ====
section
/-!
SUPPORT. The byte order and the operation word, a word at a time (spec/20_memory.md R102, spec/30_encoding.md R130-R133).
-/

namespace Sys2Proof

set_option Elab.async false

/-- Four bytes of a word make the word again. -/
theorem wordOfBytes_bytes (w : Word) :
    wordOfBytes (w.extractLsb' 0 8) (w.extractLsb' 8 8) (w.extractLsb' 16 8) (w.extractLsb' 24 8) = w := by
  unfold wordOfBytes
  apply BitVec.eq_of_getLsbD_eq
  intro i hi
  simp only [BitVec.getLsbD_append, BitVec.getLsbD_extractLsb']
  split_ifs with h1 h2 h3
  · simp [h1]
  · have h4 : i - 8 < 8 := h2
    simp only [h4, decide_true, Bool.true_and]; congr 1; omega
  · have h4 : i - 8 - 8 < 8 := h3
    simp only [h4, decide_true, Bool.true_and]; congr 1; omega
  · have h4 : i - 8 - 8 - 8 < 8 := by omega
    simp only [h4, decide_true, Bool.true_and]; congr 1; omega

theorem takeWord_bytes (w : Word) (rest : List Byte) : takeWord (bytesOfWord w ++ rest) = some (w, rest) := by
  simp only [bytesOfWord, List.cons_append, List.nil_append, takeWord, wordOfBytes_bytes]

/-- The words of a serialized list come back. -/
theorem takeWords_flatMap (ws : List Word) (rest : List Byte) :
    takeWords ws.length (ws.flatMap bytesOfWord ++ rest) = some (ws, rest) := by
  induction ws with
  | nil => rfl
  | cons w ws ih =>
    simp only [List.length_cons, List.flatMap_cons, List.append_assoc, takeWords, takeWord_bytes, ih]

/-- The operation word and the payload of an encoded operation, taken from a stream. -/
theorem takeWord_encode (i : Instr) (rest : List Byte) :
    takeWord (encode i ++ rest) = some (encodeWord i, (encodePayload i).flatMap bytesOfWord ++ rest) := by
  unfold encode encodeWords
  rw [List.flatMap_cons, List.append_assoc, takeWord_bytes]

/-- The length of an encoded operation: four bytes a word. -/
theorem encode_length (i : Instr) : (encode i).length = 4 * (1 + (encodePayload i).length) := by
  have h : ∀ ws : List Word, (ws.flatMap bytesOfWord).length = 4 * ws.length := by
    intro ws
    induction ws with
    | nil => rfl
    | cons w ws ih => simp only [List.flatMap_cons, List.length_append, List.length_cons, ih, bytesOfWord,
        List.length_nil]; omega
  unfold encode encodeWords
  rw [h, List.length_cons]; omega

/-- The fields of a register operation's word. -/
theorem regField_append (hi : BitVec 23) (reg : BitVec 9) : regField (hi ++ reg) = reg := by
  unfold regField
  apply BitVec.eq_of_getLsbD_eq
  intro i h
  rw [BitVec.getLsbD_extractLsb', Nat.zero_add, BitVec.getLsbD_append]
  simp [h]

/-- The format bits and the class of a register operation's word (30 R130, R131). -/
theorem regRead_word (reg : BitVec 9) :
    opClass (encodeWord (.regRead reg)) = 2 ∧ regFormat (encodeWord (.regRead reg)) = true ∧
      regField (encodeWord (.regRead reg)) = reg := by
  refine ⟨?_, ?_, regField_append _ reg⟩
  · revert reg; decide +kernel
  · revert reg; decide +kernel

theorem regWrite_word (reg : BitVec 9) (v : Word) :
    opClass (encodeWord (.regWrite reg v)) = 3 ∧ regFormat (encodeWord (.regWrite reg v)) = true ∧
      regField (encodeWord (.regWrite reg v)) = reg := by
  refine ⟨?_, ?_, regField_append _ reg⟩
  · exact (show ∀ r : BitVec 9, opClass ((0x180000#23) ++ r : Word) = 3 by decide +kernel) reg
  · exact (show ∀ r : BitVec 9, regFormat ((0x180000#23) ++ r : Word) = true by decide +kernel) reg

end Sys2Proof
end

