-- ==== Sys2Proof/Laws/PerInstr.lean ====
section
/-!
SUPPORT. One fact for every constructor of `Instr`: its payload has as many words as its operation word's class says, so
that the stream stays in step after any operation (spec/30_encoding.md R130, R133).
-/

namespace Sys2Proof.Laws.PayloadLength

set_option Elab.async false

/-- The payload of an encoded operation has the length its class has. -/
def Statement (i : Instr) : Prop := (encodePayload i).length = payloadWords (opClass (encodeWord i))

theorem tick (fb : Feedback) : Statement (.tick fb) := by
  have h : payloadWords (opClass 0#32) = 11 := by decide
  exact h.symm
theorem reqZeroDrift : Statement .reqZeroDrift := by unfold Statement; decide
theorem reqPowerStageTest : Statement .reqPowerStageTest := by unfold Statement; decide
theorem reqAdjustCurrent : Statement .reqAdjustCurrent := by unfold Statement; decide
theorem reqProbeConstR : Statement .reqProbeConstR := by unfold Statement; decide
theorem reqProbeConstL : Statement .reqProbeConstL := by unfold Statement; decide
theorem reqLuInitiate : Statement .reqLuInitiate := by unfold Statement; decide
theorem reqLuShutdown : Statement .reqLuShutdown := by unfold Statement; decide
theorem reqProbeConstE : Statement .reqProbeConstE := by unfold Statement; decide
theorem reqProbeConstJ : Statement .reqProbeConstJ := by unfold Statement; decide
theorem reqHalt : Statement .reqHalt := by unfold Statement; decide

theorem regRead (reg : BitVec 9) : Statement (.regRead reg) := by
  unfold Statement
  rw [(regRead_word reg).1]; rfl

theorem regWrite (reg : BitVec 9) (value : Word) : Statement (.regWrite reg value) := by
  unfold Statement
  rw [(regWrite_word reg value).1]; rfl

end Sys2Proof.Laws.PayloadLength
end

