-- ==== Sys2Proof/Laws/RegFile.lean ====
section
/-!
SUPPORT. The controller record as a map: a read after a write, and that a write keeps the canonical form and the types
(spec/10_state.md R57, spec/20_memory.md R104, R108).
-/

namespace Sys2Proof.Machine

set_option Elab.async false

theorem RegFile.get_nil (n : Nat) : RegFile.get [] n = 0 := rfl

theorem RegFile.get_cons (k : Nat) (v : Word) (rest : RegFile) (n : Nat) :
    RegFile.get ((k, v) :: rest) n = if k = n then v else RegFile.get rest n := by
  have hb : Nat.beq k n = decide (k = n) := by
    rw [Bool.eq_iff_iff, Nat.beq_eq, decide_eq_true_eq]
  by_cases h : k = n <;> simp [RegFile.get, hb, h]

theorem RegFile.put_nil (n : Nat) (w : Word) : RegFile.put [] n w = if w = 0 then [] else [(n, w)] := by
  by_cases h : w = 0 <;> simp [RegFile.put, h]

theorem RegFile.put_cons (k : Nat) (v : Word) (rest : RegFile) (n : Nat) (w : Word) :
    RegFile.put ((k, v) :: rest) n w =
      if k < n then (k, v) :: RegFile.put rest n w
      else if k = n then (if w = 0 then rest else (n, w) :: rest)
      else if w = 0 then (k, v) :: rest else (n, w) :: (k, v) :: rest := by
  have hb : Nat.beq k n = decide (k = n) := by
    rw [Bool.eq_iff_iff, Nat.beq_eq, decide_eq_true_eq]
  have hl : Nat.blt k n = decide (k < n) := by
    rw [Bool.eq_iff_iff, Nat.blt_eq, decide_eq_true_eq]
  by_cases h : k < n
  · simp [RegFile.put, hl, h]
  · by_cases h2 : k = n
    · subst h2
      by_cases h3 : w = 0 <;> simp [RegFile.put, hl, h3]
    · by_cases h3 : w = 0 <;> simp [RegFile.put, hb, hl, h, h2, h3]

/-- Every number listed is at least `b`. -/
def RegFile.from (b : Nat) : RegFile → Prop
  | [] => True
  | (k, _) :: rest => b ≤ k ∧ RegFile.from b rest

theorem RegFile.get_of_from {l : RegFile} {b n : Nat} (h : RegFile.from b l) (hn : n < b) : RegFile.get l n = 0 := by
  induction l with
  | nil => rfl
  | cons p rest ih =>
    obtain ⟨k, v⟩ := p
    obtain ⟨h1, h2⟩ := h
    rw [RegFile.get_cons, if_neg (by omega), ih h2]

theorem RegFile.from_mono {l : RegFile} {b c : Nat} (h : RegFile.from b l) (hc : c ≤ b) : RegFile.from c l := by
  induction l with
  | nil => trivial
  | cons p rest ih => exact ⟨by have := h.1; omega, ih h.2⟩

/-- The canonical form, one entry at a time. -/
theorem RegFile.wf_cons {k : Nat} {v : Word} {rest : RegFile} :
    RegFile.wf ((k, v) :: rest) = true ↔ v ≠ 0 ∧ RegFile.from (k + 1) rest ∧ RegFile.wf rest = true := by
  induction rest generalizing k v with
  | nil => simp [RegFile.wf, RegFile.from]
  | cons p rest ih =>
    obtain ⟨m, u⟩ := p
    rw [RegFile.wf]
    constructor
    · intro h
      simp only [Bool.and_eq_true, decide_eq_true_eq] at h
      obtain ⟨⟨h1, h2⟩, h3⟩ := h
      exact ⟨h1, ⟨h2, RegFile.from_mono (ih.mp h3).2.1 (by omega)⟩, h3⟩
    · rintro ⟨h1, h2, h3⟩
      simp only [Bool.and_eq_true, decide_eq_true_eq]
      exact ⟨⟨h1, h2.1⟩, h3⟩

theorem RegFile.from_put {l : RegFile} {b n : Nat} {w : Word} (h : RegFile.from b l) (hn : b ≤ n) :
    RegFile.from b (RegFile.put l n w) := by
  induction l with
  | nil => rw [RegFile.put_nil]; split <;> simp [RegFile.from, hn]
  | cons p rest ih =>
    obtain ⟨k, v⟩ := p
    rw [RegFile.put_cons]
    split_ifs
    · exact ⟨h.1, ih h.2⟩
    · exact h.2
    · exact ⟨hn, h.2⟩
    · exact h
    · exact ⟨hn, h⟩

/-- A write keeps the canonical form. -/
theorem RegFile.wf_put {l : RegFile} (h : RegFile.wf l = true) (n : Nat) (w : Word) :
    RegFile.wf (RegFile.put l n w) = true := by
  induction l with
  | nil => rw [RegFile.put_nil]; split <;> simp_all [RegFile.wf]
  | cons p rest ih =>
    obtain ⟨k, v⟩ := p
    obtain ⟨h1, h2, h3⟩ := RegFile.wf_cons.mp h
    rw [RegFile.put_cons]
    split_ifs with c1 c2 c3 c4
    · exact RegFile.wf_cons.mpr ⟨h1, RegFile.from_put h2 (by omega), ih h3⟩
    · exact h3
    · exact RegFile.wf_cons.mpr ⟨c3, c2 ▸ h2, h3⟩
    · exact h
    · exact RegFile.wf_cons.mpr ⟨c4, ⟨by omega, RegFile.from_mono h2 (by omega)⟩, h⟩

/-- A read of the register just written. -/
theorem RegFile.get_put_same {l : RegFile} (h : RegFile.wf l = true) (n : Nat) (w : Word) :
    RegFile.get (RegFile.put l n w) n = w := by
  induction l with
  | nil => rw [RegFile.put_nil]; split <;> simp_all [RegFile.get_cons, RegFile.get_nil]
  | cons p rest ih =>
    obtain ⟨k, v⟩ := p
    obtain ⟨h1, h2, h3⟩ := RegFile.wf_cons.mp h
    rw [RegFile.put_cons]
    split_ifs with c1 c2 c3 c4
    · rw [RegFile.get_cons, if_neg (by omega), ih h3]
    · rw [RegFile.get_of_from h2 (by omega), c3]
    · rw [RegFile.get_cons, if_pos rfl]
    · rw [RegFile.get_cons, if_neg c2, RegFile.get_of_from h2 (by omega), c4]
    · rw [RegFile.get_cons, if_pos rfl]

/-- A read of another register, whatever the form of the record. -/
theorem RegFile.get_put_other (l : RegFile) {n m : Nat} (w : Word) (h : m ≠ n) :
    RegFile.get (RegFile.put l n w) m = RegFile.get l m := by
  induction l with
  | nil => rw [RegFile.put_nil]; split <;> simp [RegFile.get_cons, RegFile.get_nil, Ne.symm h]
  | cons p rest ih =>
    obtain ⟨k, v⟩ := p
    rw [RegFile.put_cons]
    split_ifs with c1 c2 c3 c4
    · simp only [RegFile.get_cons, ih]
    · rw [RegFile.get_cons, if_neg (by omega)]
    · rw [RegFile.get_cons, RegFile.get_cons, if_neg (Ne.symm h), if_neg (by omega)]
    · rfl
    · rw [RegFile.get_cons, if_neg (Ne.symm h)]

/-- Canonical records with the same words are equal. -/
theorem RegFile.ext {l m : RegFile} (hl : RegFile.wf l = true) (hm : RegFile.wf m = true)
    (h : ∀ n, RegFile.get l n = RegFile.get m n) : l = m := by
  induction l generalizing m with
  | nil =>
    cases m with
    | nil => rfl
    | cons q m =>
      obtain ⟨j, u⟩ := q
      have := h j
      rw [RegFile.get_nil, RegFile.get_cons, if_pos rfl] at this
      exact absurd this.symm (RegFile.wf_cons.mp hm).1
  | cons p l ih =>
    obtain ⟨k, v⟩ := p
    obtain ⟨hv, hk, hl'⟩ := RegFile.wf_cons.mp hl
    cases m with
    | nil =>
      have := h k
      rw [RegFile.get_nil, RegFile.get_cons, if_pos rfl] at this
      exact absurd this hv
    | cons q m =>
      obtain ⟨j, u⟩ := q
      obtain ⟨hu, hj, hm'⟩ := RegFile.wf_cons.mp hm
      have hkj : k = j := by
        by_contra hne
        rcases Nat.lt_or_gt_of_ne hne with hlt | hlt
        · have := h k
          rw [RegFile.get_cons, if_pos rfl, RegFile.get_cons, if_neg (by omega),
            RegFile.get_of_from hj (by omega)] at this
          exact hv this
        · have := h j
          rw [RegFile.get_cons, if_neg (by omega), RegFile.get_of_from hk (by omega), RegFile.get_cons,
            if_pos rfl] at this
          exact hu this.symm
      subst hkj
      have hvu : v = u := by
        have := h k
        rwa [RegFile.get_cons, if_pos rfl, RegFile.get_cons, if_pos rfl] at this
      subst hvu
      rw [ih hl' hm' (fun n => ?_)]
      have := h n
      rw [RegFile.get_cons, RegFile.get_cons] at this
      by_cases hn : k = n
      · rw [RegFile.get_of_from hk (by omega), RegFile.get_of_from hj (by omega)]
      · rwa [if_neg hn, if_neg hn] at this

/-- Writing the same value twice is writing it once (20 R106). -/
theorem RegFile.put_put {l : RegFile} (h : RegFile.wf l = true) (n : Nat) (w : Word) :
    RegFile.put (RegFile.put l n w) n w = RegFile.put l n w := by
  have h1 := RegFile.wf_put h n w
  refine RegFile.ext (RegFile.wf_put h1 n w) h1 (fun m => ?_)
  by_cases hm : m = n
  · subst hm; rw [RegFile.get_put_same h1, RegFile.get_put_same h]
  · rw [RegFile.get_put_other _ _ hm]

end Sys2Proof.Machine
end

