-- ==== Sys2Proof/Laws/Record.lean ====
section
/-!
SUPPORT. Reads and writes of registers: what `State.store` and `State.set` leave in every register (spec/10_state.md R57),
and that they keep the record sound.
-/

namespace Sys2Proof.Machine

set_option Elab.async false

/-- A read of a typed record finds a legal value. -/
theorem RegFile.mayHold_get {l : RegFile} (h : l.typed = true) {n : Nat} {k : Kind} (hk : Reg.kindOf n = some k) :
    k.legal (l.get n) = true := by
  have h0 : k.legal 0 = true ∨ l.get n ≠ 0 := by
    by_cases hz : l.get n = 0
    · left
      have hcount : ∀ r ∈ RegTable.rows, r.kind.legal 0 = true := by decide +kernel
      unfold Reg.kindOf at hk
      cases hf : List.find? (fun x => RegRow.has x n) RegTable.rows with
      | none => rw [hf] at hk; simp at hk
      | some r =>
        rw [hf] at hk
        simp only [Option.map_some, Option.some.injEq] at hk
        exact hk ▸ hcount r (List.mem_of_find?_eq_some hf)
    · exact .inr hz
  induction l with
  | nil => rcases h0 with h0 | h0
           · exact h0
           · exact absurd rfl h0
  | cons p rest ih =>
    obtain ⟨m, v⟩ := p
    simp only [RegFile.typed, List.all_cons, Bool.and_eq_true] at h
    rw [RegFile.get_cons] at h0 ⊢
    by_cases hm : m = n
    · subst hm
      simpa [Reg.mayHold, hk] using h.1
    · simp only [if_neg hm] at h0 ⊢
      exact ih h.2 h0

/-- A write of a legal value keeps the types. -/
theorem RegFile.typed_put {l : RegFile} (h : l.typed = true) {n : Nat} {w : Word} (hw : Reg.mayHold n w = true) :
    (l.put n w).typed = true := by
  induction l with
  | nil => rw [RegFile.put_nil]; split <;> simp [RegFile.typed, hw]
  | cons p rest ih =>
    obtain ⟨m, v⟩ := p
    have h' := h
    simp only [RegFile.typed, List.all_cons, Bool.and_eq_true] at h
    rw [RegFile.put_cons]
    split_ifs
    · have := ih h.2
      simp only [RegFile.typed] at this ⊢
      simp [h.1, this]
    · exact h.2
    · simp [RegFile.typed] at h ⊢; exact ⟨hw, h.2⟩
    · exact h'
    · simp [RegFile.typed] at h ⊢; exact ⟨hw, h.1, h.2⟩

theorem Reg.mayHold_of_kind {n : Nat} {k : Kind} {w : Word} (hk : Reg.kindOf n = some k) (hw : k.legal w = true) :
    Reg.mayHold n w = true := by
  simp [Reg.mayHold, hk, hw]

/-- What `store` leaves in every register: the value, and `fsm_phase` at 0 when the register is `fsm_state`. -/
theorem State.word_store (s : State) (h : s.regs.wf = true) (n : Nat) (w : Word) (m : Nat) :
    (s.store n w).word m = if m = n then w else if n = 464 ∧ m = 465 then 0 else s.word m := by
  unfold State.store State.word
  by_cases hn : n = 464
  · subst hn
    simp only [show Nat.beq 464 464 = true from rfl, cond_true, true_and]
    by_cases h1 : m = 465
    · subst h1
      rw [RegFile.get_put_same (RegFile.wf_put h _ _)]
      simp
    · rw [RegFile.get_put_other _ _ h1, if_neg h1]
      by_cases h2 : m = 464
      · subst h2; rw [RegFile.get_put_same h]; simp
      · rw [RegFile.get_put_other _ _ h2, if_neg h2]
  · have hb : Nat.beq n 464 = false := by
      rw [Bool.eq_false_iff]; intro hc; exact hn (Nat.eq_of_beq_eq_true hc)
    simp only [hb, cond_false]
    by_cases h1 : m = n
    · subst h1; rw [RegFile.get_put_same h, if_pos rfl]
    · rw [RegFile.get_put_other _ _ h1, if_neg h1, if_neg (fun hc => hn hc.1)]

/-- Another register than the one stored, and than `fsm_phase` beside `fsm_state`, whatever the form of the record. -/
theorem State.word_store_other (s : State) (n : Nat) (w : Word) {m : Nat} (h1 : m ≠ n) (h2 : n = 464 → m ≠ 465) :
    (s.store n w).word m = s.word m := by
  unfold State.store State.word
  cases hb : Nat.beq n 464 with
  | true =>
    have hn := Nat.eq_of_beq_eq_true hb
    subst hn
    simp only [cond_true]
    rw [RegFile.get_put_other _ _ (h2 rfl), RegFile.get_put_other _ _ h1]
  | false => simp only [cond_false]; rw [RegFile.get_put_other _ _ h1]

theorem State.wf_store (s : State) (h : s.regs.wf = true) (n : Nat) (w : Word) : (s.store n w).regs.wf = true := by
  unfold State.store
  cases Nat.beq n 464 with
  | true => exact RegFile.wf_put (RegFile.wf_put h _ _) _ _
  | false => exact RegFile.wf_put h _ _

theorem State.typed_store (s : State) (h : s.regs.typed = true) {n : Nat} {w : Word} (hw : Reg.mayHold n w = true) :
    (s.store n w).regs.typed = true := by
  unfold State.store
  cases hb : Nat.beq n 464 with
  | true =>
    have hn := Nat.eq_of_beq_eq_true hb
    subst hn
    exact RegFile.typed_put (RegFile.typed_put h hw) (by decide +kernel)
  | false => exact RegFile.typed_put h hw

theorem State.sound_iff (s : State) : s.sound = true ↔ s.regs.wf = true ∧ s.regs.typed = true := by
  simp [State.sound]

theorem State.sound_store (s : State) (h : s.sound = true) {n : Nat} {w : Word} (hw : Reg.mayHold n w = true) :
    (s.store n w).sound = true := by
  rw [State.sound_iff] at h ⊢
  exact ⟨State.wf_store s h.1 n w, State.typed_store s h.2 hw⟩

/-- A register of a sound record holds a value of its type. -/
theorem State.legal_word (s : State) (h : s.sound = true) {n : Nat} {k : Kind} (hk : Reg.kindOf n = some k) :
    k.legal (s.word n) = true := RegFile.mayHold_get ((s.sound_iff.mp h).2) hk

/-- The internal writer stores a legal value. -/
theorem State.set_legal (s : State) (r : Reg) {w : Word} (h : r.kind.legal w = true) : s.set r w = s.store r.num w := by
  simp [State.set, h]

/-- The internal writer stops at an illegal value (10 R57). -/
theorem State.set_illegal (s : State) (r : Reg) {w : Word} (h : r.kind.legal w = false) :
    s.set r w = s.poison .illegalInternalWrite := by
  simp [State.set, h]

theorem State.word_set_same {s : State} {r : Reg} {w : Word} (hwf : s.regs.wf = true) (hl : r.kind.legal w = true) :
    (s.set r w).word r.num = w := by
  rw [State.set_legal _ _ hl, State.word_store _ hwf, if_pos rfl]

end Sys2Proof.Machine
end

