-- ==== Sys2Proof/Laws/State.lean ====
section
/-!
SUPPORT. One lemma per field per update of the state, each true by unfolding.
-/

namespace Sys2Proof.Machine

set_option Elab.async false

/-! ### `poison` -/

@[simp] theorem State.poison_regs (s : State) (why : Fault) :
    (s.poison why).regs = s.regs := rfl

@[simp] theorem State.poison_params (s : State) (why : Fault) :
    (s.poison why).params = s.params := rfl

@[simp] theorem State.poison_tick (s : State) (why : Fault) :
    (s.poison why).tick = s.tick := rfl

@[simp] theorem State.poison_tl (s : State) (why : Fault) :
    (s.poison why).tl = { s.tl with unmodelled := match s.tl.unmodelled with | some f => some f | none => some why } := rfl

@[simp] theorem State.poison_out (s : State) (why : Fault) :
    (s.poison why).out = s.out := rfl

@[simp] theorem State.poison_bridge (s : State) (why : Fault) :
    (s.poison why).bridge = s.bridge := rfl

@[simp] theorem State.poison_refusals (s : State) (why : Fault) :
    (s.poison why).refusals = s.refusals := rfl

@[simp] theorem State.poison_guardOpen (s : State) (why : Fault) :
    (s.poison why).guardOpen = s.guardOpen := rfl

@[simp] theorem State.poison_draws (s : State) (why : Fault) :
    (s.poison why).draws = s.draws := rfl

@[simp] theorem State.poison_inbox (s : State) (why : Fault) :
    (s.poison why).inbox = s.inbox := rfl

@[simp] theorem State.poison_word (s : State) (why : Fault) (m : Nat) :
    (s.poison why).word m = s.word m := rfl

/-! ### `store` -/

@[simp] theorem State.store_regs (s : State) (n : Nat) (w : Word) :
    (s.store n w).regs = bif Nat.beq n 464 then (s.regs.put 464 w).put 465 0 else s.regs.put n w := rfl

@[simp] theorem State.store_params (s : State) (n : Nat) (w : Word) :
    (s.store n w).params = s.params := rfl

@[simp] theorem State.store_tick (s : State) (n : Nat) (w : Word) :
    (s.store n w).tick = s.tick := rfl

@[simp] theorem State.store_tl (s : State) (n : Nat) (w : Word) :
    (s.store n w).tl = s.tl := rfl

@[simp] theorem State.store_out (s : State) (n : Nat) (w : Word) :
    (s.store n w).out = s.out := rfl

@[simp] theorem State.store_bridge (s : State) (n : Nat) (w : Word) :
    (s.store n w).bridge = s.bridge := rfl

@[simp] theorem State.store_refusals (s : State) (n : Nat) (w : Word) :
    (s.store n w).refusals = s.refusals := rfl

@[simp] theorem State.store_guardOpen (s : State) (n : Nat) (w : Word) :
    (s.store n w).guardOpen = s.guardOpen := rfl

@[simp] theorem State.store_draws (s : State) (n : Nat) (w : Word) :
    (s.store n w).draws = s.draws := rfl

@[simp] theorem State.store_inbox (s : State) (n : Nat) (w : Word) :
    (s.store n w).inbox = s.inbox := rfl

/-! ### `refuse` -/

@[simp] theorem State.refuse_regs (s : State) (why : RefusedOp) :
    (s.refuse why).regs = s.regs := rfl

@[simp] theorem State.refuse_params (s : State) (why : RefusedOp) :
    (s.refuse why).params = s.params := rfl

@[simp] theorem State.refuse_tick (s : State) (why : RefusedOp) :
    (s.refuse why).tick = s.tick := rfl

@[simp] theorem State.refuse_tl (s : State) (why : RefusedOp) :
    (s.refuse why).tl = s.tl := rfl

@[simp] theorem State.refuse_out (s : State) (why : RefusedOp) :
    (s.refuse why).out = { s.out with refused := s.out.refused ++ [why] } := rfl

@[simp] theorem State.refuse_bridge (s : State) (why : RefusedOp) :
    (s.refuse why).bridge = s.bridge := rfl

@[simp] theorem State.refuse_refusals (s : State) (why : RefusedOp) :
    (s.refuse why).refusals = s.refusals + 1 := rfl

@[simp] theorem State.refuse_guardOpen (s : State) (why : RefusedOp) :
    (s.refuse why).guardOpen = s.guardOpen := rfl

@[simp] theorem State.refuse_draws (s : State) (why : RefusedOp) :
    (s.refuse why).draws = s.draws := rfl

@[simp] theorem State.refuse_inbox (s : State) (why : RefusedOp) :
    (s.refuse why).inbox = s.inbox := rfl

@[simp] theorem State.refuse_word (s : State) (why : RefusedOp) (m : Nat) :
    (s.refuse why).word m = s.word m := rfl

/-! ### `respond` -/

@[simp] theorem State.respond_regs (s : State) (w : Word) :
    (s.respond w).regs = s.regs := rfl

@[simp] theorem State.respond_params (s : State) (w : Word) :
    (s.respond w).params = s.params := rfl

@[simp] theorem State.respond_tick (s : State) (w : Word) :
    (s.respond w).tick = s.tick := rfl

@[simp] theorem State.respond_tl (s : State) (w : Word) :
    (s.respond w).tl = s.tl := rfl

@[simp] theorem State.respond_out (s : State) (w : Word) :
    (s.respond w).out = { s.out with responses := s.out.responses ++ [w] } := rfl

@[simp] theorem State.respond_bridge (s : State) (w : Word) :
    (s.respond w).bridge = s.bridge := rfl

@[simp] theorem State.respond_refusals (s : State) (w : Word) :
    (s.respond w).refusals = s.refusals := rfl

@[simp] theorem State.respond_guardOpen (s : State) (w : Word) :
    (s.respond w).guardOpen = s.guardOpen := rfl

@[simp] theorem State.respond_draws (s : State) (w : Word) :
    (s.respond w).draws = s.draws := rfl

@[simp] theorem State.respond_inbox (s : State) (w : Word) :
    (s.respond w).inbox = s.inbox := rfl

@[simp] theorem State.respond_word (s : State) (w : Word) (m : Nat) :
    (s.respond w).word m = s.word m := rfl

/-! ### `callDuty` -/

@[simp] theorem State.callDuty_regs (s : State) (d : Legs I32) :
    (s.callDuty d).regs = s.regs := rfl

@[simp] theorem State.callDuty_params (s : State) (d : Legs I32) :
    (s.callDuty d).params = s.params := rfl

@[simp] theorem State.callDuty_tick (s : State) (d : Legs I32) :
    (s.callDuty d).tick = s.tick := rfl

@[simp] theorem State.callDuty_tl (s : State) (d : Legs I32) :
    (s.callDuty d).tl = { s.tl with emitted := true } := rfl

@[simp] theorem State.callDuty_out (s : State) (d : Legs I32) :
    (s.callDuty d).out = { s.out with sinks := s.out.sinks ++ [.duty d.a d.b d.c] } := rfl

@[simp] theorem State.callDuty_bridge (s : State) (d : Legs I32) :
    (s.callDuty d).bridge = { s.bridge with duty := some d } := rfl

@[simp] theorem State.callDuty_refusals (s : State) (d : Legs I32) :
    (s.callDuty d).refusals = s.refusals := rfl

@[simp] theorem State.callDuty_guardOpen (s : State) (d : Legs I32) :
    (s.callDuty d).guardOpen = s.guardOpen := rfl

@[simp] theorem State.callDuty_draws (s : State) (d : Legs I32) :
    (s.callDuty d).draws = s.draws := rfl

@[simp] theorem State.callDuty_inbox (s : State) (d : Legs I32) :
    (s.callDuty d).inbox = s.inbox := rfl

@[simp] theorem State.callDuty_word (s : State) (d : Legs I32) (m : Nat) :
    (s.callDuty d).word m = s.word m := rfl

/-! ### `callZ` -/

@[simp] theorem State.callZ_regs (s : State) (m : Word) :
    (s.callZ m).regs = s.regs := rfl

@[simp] theorem State.callZ_params (s : State) (m : Word) :
    (s.callZ m).params = s.params := rfl

@[simp] theorem State.callZ_tick (s : State) (m : Word) :
    (s.callZ m).tick = s.tick := rfl

@[simp] theorem State.callZ_tl (s : State) (m : Word) :
    (s.callZ m).tl = s.tl := rfl

@[simp] theorem State.callZ_out (s : State) (m : Word) :
    (s.callZ m).out = { s.out with sinks := s.out.sinks ++ [.z m] } := rfl

@[simp] theorem State.callZ_bridge (s : State) (m : Word) :
    (s.callZ m).bridge = { s.bridge with z := some m } := rfl

@[simp] theorem State.callZ_refusals (s : State) (m : Word) :
    (s.callZ m).refusals = s.refusals := rfl

@[simp] theorem State.callZ_guardOpen (s : State) (m : Word) :
    (s.callZ m).guardOpen = s.guardOpen := rfl

@[simp] theorem State.callZ_draws (s : State) (m : Word) :
    (s.callZ m).draws = s.draws := rfl

@[simp] theorem State.callZ_inbox (s : State) (m : Word) :
    (s.callZ m).inbox = s.inbox := rfl

@[simp] theorem State.callZ_word (s : State) (m : Word) (n : Nat) :
    (s.callZ m).word n = s.word n := rfl

/-! ### `setInbox` -/

@[simp] theorem State.setInbox_regs (s : State) (inbox : List Segment) :
    (s.setInbox inbox).regs = s.regs := rfl

@[simp] theorem State.setInbox_params (s : State) (inbox : List Segment) :
    (s.setInbox inbox).params = s.params := rfl

@[simp] theorem State.setInbox_tick (s : State) (inbox : List Segment) :
    (s.setInbox inbox).tick = s.tick := rfl

@[simp] theorem State.setInbox_tl (s : State) (inbox : List Segment) :
    (s.setInbox inbox).tl = s.tl := rfl

@[simp] theorem State.setInbox_out (s : State) (inbox : List Segment) :
    (s.setInbox inbox).out = s.out := rfl

@[simp] theorem State.setInbox_bridge (s : State) (inbox : List Segment) :
    (s.setInbox inbox).bridge = s.bridge := rfl

@[simp] theorem State.setInbox_refusals (s : State) (inbox : List Segment) :
    (s.setInbox inbox).refusals = s.refusals := rfl

@[simp] theorem State.setInbox_guardOpen (s : State) (inbox : List Segment) :
    (s.setInbox inbox).guardOpen = s.guardOpen := rfl

@[simp] theorem State.setInbox_draws (s : State) (inbox : List Segment) :
    (s.setInbox inbox).draws = s.draws := rfl

@[simp] theorem State.setInbox_inbox (s : State) (inbox : List Segment) :
    (s.setInbox inbox).inbox = inbox := rfl

@[simp] theorem State.setInbox_word (s : State) (inbox : List Segment) (m : Nat) :
    (s.setInbox inbox).word m = s.word m := rfl

/-! ### `closeGuard` -/

@[simp] theorem State.closeGuard_regs (s : State) :
    (s.closeGuard).regs = s.regs := rfl

@[simp] theorem State.closeGuard_params (s : State) :
    (s.closeGuard).params = s.params := rfl

@[simp] theorem State.closeGuard_tick (s : State) :
    (s.closeGuard).tick = s.tick := rfl

@[simp] theorem State.closeGuard_tl (s : State) :
    (s.closeGuard).tl = s.tl := rfl

@[simp] theorem State.closeGuard_out (s : State) :
    (s.closeGuard).out = s.out := rfl

@[simp] theorem State.closeGuard_bridge (s : State) :
    (s.closeGuard).bridge = s.bridge := rfl

@[simp] theorem State.closeGuard_refusals (s : State) :
    (s.closeGuard).refusals = s.refusals := rfl

@[simp] theorem State.closeGuard_guardOpen (s : State) :
    (s.closeGuard).guardOpen = false := rfl

@[simp] theorem State.closeGuard_draws (s : State) :
    (s.closeGuard).draws = s.draws := rfl

@[simp] theorem State.closeGuard_inbox (s : State) :
    (s.closeGuard).inbox = s.inbox := rfl

@[simp] theorem State.closeGuard_word (s : State) (m : Nat) :
    (s.closeGuard).word m = s.word m := rfl

/-! ### `openTick` -/

@[simp] theorem State.openTick_regs (s : State) :
    (s.openTick).regs = s.regs := rfl

@[simp] theorem State.openTick_params (s : State) :
    (s.openTick).params = s.params := rfl

@[simp] theorem State.openTick_tick (s : State) :
    (s.openTick).tick = s.tick := rfl

@[simp] theorem State.openTick_tl (s : State) :
    (s.openTick).tl = TickLocal.none := rfl

@[simp] theorem State.openTick_out (s : State) :
    (s.openTick).out = s.out := rfl

@[simp] theorem State.openTick_bridge (s : State) :
    (s.openTick).bridge = s.bridge := rfl

@[simp] theorem State.openTick_refusals (s : State) :
    (s.openTick).refusals = s.refusals := rfl

@[simp] theorem State.openTick_guardOpen (s : State) :
    (s.openTick).guardOpen = s.guardOpen := rfl

@[simp] theorem State.openTick_draws (s : State) :
    (s.openTick).draws = s.draws := rfl

@[simp] theorem State.openTick_inbox (s : State) :
    (s.openTick).inbox = s.inbox := rfl

@[simp] theorem State.openTick_word (s : State) (m : Nat) :
    (s.openTick).word m = s.word m := rfl

/-! ### `closeTick` -/

@[simp] theorem State.closeTick_regs (s : State) :
    (s.closeTick).regs = s.regs := rfl

@[simp] theorem State.closeTick_params (s : State) :
    (s.closeTick).params = s.params := rfl

@[simp] theorem State.closeTick_tick (s : State) :
    (s.closeTick).tick = s.tick + 1 := rfl

@[simp] theorem State.closeTick_tl (s : State) :
    (s.closeTick).tl = TickLocal.none := rfl

@[simp] theorem State.closeTick_out (s : State) :
    (s.closeTick).out = s.out := rfl

@[simp] theorem State.closeTick_bridge (s : State) :
    (s.closeTick).bridge = s.bridge := rfl

@[simp] theorem State.closeTick_refusals (s : State) :
    (s.closeTick).refusals = s.refusals := rfl

@[simp] theorem State.closeTick_guardOpen (s : State) :
    (s.closeTick).guardOpen = s.guardOpen := rfl

@[simp] theorem State.closeTick_draws (s : State) :
    (s.closeTick).draws = s.draws := rfl

@[simp] theorem State.closeTick_inbox (s : State) :
    (s.closeTick).inbox = s.inbox := rfl

@[simp] theorem State.closeTick_word (s : State) (m : Nat) :
    (s.closeTick).word m = s.word m := rfl

/-! ### `startOp` and `openGuard` -/

@[simp] theorem State.startOp_word (s : State) (m : Nat) : s.startOp.word m = s.word m := by
  unfold State.startOp; split <;> rfl

@[simp] theorem State.startOp_regs (s : State) : s.startOp.regs = s.regs := by
  unfold State.startOp; split <;> rfl

@[simp] theorem State.startOp_params (s : State) : s.startOp.params = s.params := by
  unfold State.startOp; split <;> rfl

@[simp] theorem State.startOp_tick (s : State) : s.startOp.tick = s.tick := by
  unfold State.startOp; split <;> rfl

@[simp] theorem State.startOp_tl (s : State) : s.startOp.tl = s.tl := by
  unfold State.startOp; split <;> rfl

@[simp] theorem State.startOp_bridge (s : State) : s.startOp.bridge = s.bridge := by
  unfold State.startOp; split <;> rfl

@[simp] theorem State.startOp_refusals (s : State) : s.startOp.refusals = s.refusals := by
  unfold State.startOp; split <;> rfl

@[simp] theorem State.startOp_guardOpen (s : State) : s.startOp.guardOpen = s.guardOpen := by
  unfold State.startOp; split <;> rfl

@[simp] theorem State.startOp_draws (s : State) : s.startOp.draws = s.draws := by
  unfold State.startOp; split <;> rfl

@[simp] theorem State.startOp_inbox (s : State) : s.startOp.inbox = s.inbox := by
  unfold State.startOp; split <;> rfl

theorem State.startOp_out (s : State) : s.startOp.out = if s.guardOpen then s.out else Outputs.none := by
  unfold State.startOp; split <;> rfl

@[simp] theorem State.openGuard_word (s : State) (m : Nat) : s.openGuard.word m = s.word m := s.startOp_word m

@[simp] theorem State.openGuard_guardOpen (s : State) : s.openGuard.guardOpen = true := rfl

@[simp] theorem State.openGuard_regs (s : State) : s.openGuard.regs = s.regs := s.startOp_regs

@[simp] theorem State.openGuard_params (s : State) : s.openGuard.params = s.params := s.startOp_params

@[simp] theorem State.openGuard_tick (s : State) : s.openGuard.tick = s.tick := s.startOp_tick

@[simp] theorem State.openGuard_tl (s : State) : s.openGuard.tl = s.tl := s.startOp_tl

@[simp] theorem State.openGuard_bridge (s : State) : s.openGuard.bridge = s.bridge := s.startOp_bridge

@[simp] theorem State.openGuard_refusals (s : State) : s.openGuard.refusals = s.refusals := s.startOp_refusals

@[simp] theorem State.openGuard_draws (s : State) : s.openGuard.draws = s.draws := s.startOp_draws

@[simp] theorem State.openGuard_inbox (s : State) : s.openGuard.inbox = s.inbox := s.startOp_inbox

theorem State.openGuard_out (s : State) : s.openGuard.out = if s.guardOpen then s.out else Outputs.none :=
  s.startOp_out

end Sys2Proof.Machine
end

