-- ==== Sys2Proof/Laws/Reach.lean ====
section
/-!
SUPPORT. What an operation of a TICK can do, said once: `Reach W F s t` says that `t` comes from `s` by writing registers
of the ranges `W` only, with legal values, by calling the sinks within their contract, and by reaching no `UNMODELLED`
condition outside `F`. One lemma a shared operation; an operation that is not in `F` for `.dutyTwice` calls the duty sink
not at all.
-/

namespace Sys2Proof.Machine

set_option Elab.async false

/-- Whether the ranges `V` lie within `W`, range by range. -/
def Ranges.within (V W : Ranges) : Bool :=
  V.all (fun p => W.any (fun q => Nat.ble q.1 p.1 && Nat.ble p.2 q.2))

theorem Ranges.has_of_within {V W : Ranges} (h : V.within W = true) {n : Nat} (hn : V.has n = true) :
    W.has n = true := by
  simp only [Ranges.has, List.any_eq_true, Ranges.within, List.all_eq_true] at *
  obtain ⟨p, hp, hp2⟩ := hn
  obtain ⟨q, hq, hq2⟩ := h p hp
  simp only [Bool.and_eq_true, Nat.ble_eq] at *
  exact ⟨q, hq, by omega, by omega⟩

/-- A register the ranges cover, under its own type; `fsm_state` needs `fsm_phase` beside it, and `pwm_resolution` is
never one. -/
def Ranges.writable (W : Ranges) (r : Reg) : Bool :=
  W.has r.num && (!Nat.beq r.num 464 || W.has 465) && !Nat.beq r.num 41 && decide (Reg.kindOf r.num = some r.kind)

/-- What an operation of a TICK can do. -/
structure State.Reach (W : Ranges) (F : List Fault) (s t : State) : Prop where
  word : ∀ n, W.has n = false → t.word n = s.word n
  resolution : t.word 41 = s.word 41
  sound : s.sound = true → t.sound = true
  params : t.params = s.params
  tick : t.tick = s.tick
  inbox : t.inbox = s.inbox
  guardOpen : t.guardOpen = s.guardOpen
  refusals : t.refusals = s.refusals
  responses : t.out.responses = s.out.responses
  refused : t.out.refused = s.out.refused
  stops : s.sound = true → ∀ f, t.tl.unmodelled = some f → s.tl.unmodelled = some f ∨ f ∈ F
  stuck : ∀ f, s.tl.unmodelled = some f → t.tl.unmodelled = some f
  sinks : ∃ l, t.out.sinks = s.out.sinks ++ l ∧ l.all (SinkCall.ok (s.word 41)) = true ∧
    s.tl.emitted.toNat + l.countP SinkCall.isDuty = t.tl.emitted.toNat
  quiet : Fault.dutyTwice ∉ F → t.tl.emitted = s.tl.emitted
  bridge : s.bridge.ok = true → t.bridge.ok = true

namespace State.Reach

variable {W V : Ranges} {F G : List Fault} {s t u : State}

theorem refl (W : Ranges) (F : List Fault) (s : State) : State.Reach W F s s where
  word _ _ := rfl
  resolution := rfl
  sound h := h
  params := rfl
  tick := rfl
  inbox := rfl
  guardOpen := rfl
  refusals := rfl
  responses := rfl
  refused := rfl
  stops _ _ h := .inl h
  stuck _ h := h
  sinks := ⟨[], by simp⟩
  quiet _ := rfl
  bridge h := h

theorem trans (h1 : State.Reach W F s t) (h2 : State.Reach W F t u) : State.Reach W F s u where
  word n hn := (h2.word n hn).trans (h1.word n hn)
  resolution := h2.resolution.trans h1.resolution
  sound h := h2.sound (h1.sound h)
  params := h2.params.trans h1.params
  tick := h2.tick.trans h1.tick
  inbox := h2.inbox.trans h1.inbox
  guardOpen := h2.guardOpen.trans h1.guardOpen
  refusals := h2.refusals.trans h1.refusals
  responses := h2.responses.trans h1.responses
  refused := h2.refused.trans h1.refused
  stops h f hf := (h2.stops (h1.sound h) f hf).elim (h1.stops h f) .inr
  stuck f hf := h2.stuck f (h1.stuck f hf)
  sinks := by
    obtain ⟨l, hl, hok, hc⟩ := h1.sinks
    obtain ⟨m, hm, hok2, hc2⟩ := h2.sinks
    refine ⟨l ++ m, by rw [hm, hl, List.append_assoc], ?_, ?_⟩
    · rw [h1.resolution] at hok2
      rw [List.all_append, hok, hok2]; rfl
    · rw [List.countP_append]; omega
  quiet h := (h2.quiet h).trans (h1.quiet h)
  bridge h := h2.bridge (h1.bridge h)

/-- More registers and more stops allowed. -/
theorem mono (h : State.Reach V G s t) (hW : V.within W = true := by decide +kernel)
    (hF : ∀ f ∈ G, f ∈ F := by decide) : State.Reach W F s t where
  word n hn := h.word n (by
    cases hv : V.has n with
    | true => rw [Ranges.has_of_within hW hv] at hn; exact hn
    | false => rfl)
  resolution := h.resolution
  sound := h.sound
  params := h.params
  tick := h.tick
  inbox := h.inbox
  guardOpen := h.guardOpen
  refusals := h.refusals
  responses := h.responses
  refused := h.refused
  stops ht f hf := (h.stops ht f hf).imp id (hF f)
  stuck := h.stuck
  sinks := h.sinks
  quiet hq := h.quiet (fun hc => hq (hF _ hc))
  bridge := h.bridge

/-- An operation appended to what has been done, whose registers and stops are among the allowed ones. -/
theorem andThen (h : State.Reach W F s t) (h2 : State.Reach V G t u) (hW : V.within W = true := by decide +kernel)
    (hF : ∀ f ∈ G, f ∈ F := by decide) : State.Reach W F s u := h.trans (h2.mono hW hF)

/-- An `UNMODELLED` condition. -/
theorem poison (h : State.Reach W F s t) (why : Fault) (hF : why ∈ F := by decide) :
    State.Reach W F s (t.poison why) := by
  refine h.trans ⟨fun _ _ => rfl, rfl, fun h => h, rfl, rfl, rfl, rfl, rfl, rfl, rfl, ?_, ?_,
    ⟨[], by simp [State.poison]⟩, fun _ => rfl, fun h => h⟩
  · intro _ f hf
    simp only [State.poison_tl] at hf
    cases hu : t.tl.unmodelled with
    | none => rw [hu] at hf; simp only [Option.some.injEq] at hf; exact .inr (hf ▸ hF)
    | some g => rw [hu] at hf; exact .inl hf
  · intro f hf
    simp [State.poison_tl, hf]

/-- An `UNMODELLED` condition that no sound state reaches. -/
theorem poisonNever (why : Fault) (h : s.sound = true → False) : State.Reach W F s (s.poison why) := by
  have h1 := (State.Reach.refl W (why :: F) s).poison why (by simp)
  exact ⟨h1.word, h1.resolution, h1.sound, h1.params, h1.tick, h1.inbox, h1.guardOpen, h1.refusals,
    h1.responses, h1.refused, fun ht => (h ht).elim, h1.stuck, h1.sinks, fun _ => rfl, h1.bridge⟩

/-- The store of a legal value. -/
theorem store (h : State.Reach W F s t) (r : Reg) (w : Word) (hw : W.writable r = true)
    (hl : r.kind.legal w = true) : State.Reach W F s (t.store r.num w) := by
  simp only [Ranges.writable, Bool.and_eq_true, Bool.or_eq_true, Bool.not_eq_true', decide_eq_true_eq] at hw
  obtain ⟨⟨⟨h1, h2⟩, h3⟩, h4⟩ := hw
  have hm := Reg.mayHold_of_kind h4 hl
  have h41 : (41 : Nat) ≠ r.num := by
    intro hc; rw [← hc] at h3; exact absurd h3 (by decide)
  refine h.trans ⟨fun n hn => State.word_store_other _ _ _ ?_ ?_, State.word_store_other _ _ _ h41 ?_,
    fun h => State.sound_store _ h hm, rfl, rfl, rfl, rfl, rfl, rfl, rfl,
    fun _ _ hf => .inl hf, fun _ hf => hf, ⟨[], by simp [State.store]⟩, fun _ => rfl, fun h => h⟩
  · intro hc; rw [hc, h1] at hn; exact absurd hn (by decide)
  · intro hc hc2
    rcases h2 with h2 | h2
    · rw [hc] at h2; exact absurd h2 (by decide)
    · rw [hc2, h2] at hn; exact absurd hn (by decide)
  · intro _; decide

/-- The internal writer, for a value that is legal when the state is sound. -/
theorem set (h : State.Reach W F s t) (r : Reg) (w : Word)
    (hl : s.sound = true → t.sound = true → r.kind.legal w = true)
    (hw : W.writable r = true := by decide +kernel) : State.Reach W F s (t.set r w) := by
  cases hk : r.kind.legal w with
  | true => rw [State.set_legal _ _ hk]; exact h.store r w hw hk
  | false =>
    rw [State.set_illegal _ _ hk]
    have hF : (State.Reach W (.illegalInternalWrite :: F) s (t.poison .illegalInternalWrite)) :=
      (h.mono (hW := ?_) (hF := fun f hf => List.mem_cons_of_mem _ hf)).poison _ (by simp)
    · refine ⟨hF.word, hF.resolution, hF.sound, hF.params, hF.tick, hF.inbox, hF.guardOpen, hF.refusals,
        hF.responses, hF.refused, fun hs f hf => ?_, hF.stuck, hF.sinks, fun hq => h.quiet hq, hF.bridge⟩
      rw [hl hs (h.sound hs)] at hk
      exact absurd hk (by decide)
    · simp only [Ranges.within, List.all_eq_true, List.any_eq_true, Bool.and_eq_true, Nat.ble_eq]
      exact fun p hp => ⟨p, hp, by omega, by omega⟩

/-- A register whose type admits every word. -/
theorem setAny (h : State.Reach W F s t) (r : Reg) (w : Word) (hk : r.kind = .f32 ∨ r.kind = .i32 := by decide)
    (hw : W.writable r = true := by decide +kernel) : State.Reach W F s (t.set r w) :=
  h.set r w (fun _ _ => by rcases hk with hk | hk <;> rw [hk] <;> rfl) hw

/-- A constant. -/
theorem setConst (h : State.Reach W F s t) (r : Reg) (w : Word) (hl : r.kind.legal w = true := by decide +kernel)
    (hw : W.writable r = true := by decide +kernel) : State.Reach W F s (t.set r w) := h.set r w (fun _ _ => hl) hw

/-- The value of a register of the same type, read in the state itself. -/
theorem setFrom (h : State.Reach W F s t) (r : Reg) {u : State} (n : Nat)
    (hu : s.sound = true → t.sound = true → u.sound = true)
    (hn : Reg.kindOf n = some r.kind := by decide +kernel)
    (hw : W.writable r = true := by decide +kernel) : State.Reach W F s (t.set r (u.word n)) :=
  h.set r _ (fun h1 h2 => State.legal_word u (hu h1 h2) hn) hw

/-- A computed real in a register whose type admits every word. -/
theorem setF (h : State.Reach W F s t) (r : Reg) (v : F32) (hk : r.kind = .f32 := by decide)
    (hw : W.writable r = true := by decide +kernel) : State.Reach W F s (t.setF r v) := by
  unfold State.setF
  cases v.isNaN with
  | true =>
    have := h.setAny r (nanOf (Config.nanBits t.draws)) (.inl hk) hw
    exact ⟨this.word, this.resolution, this.sound, this.params, this.tick, this.inbox, this.guardOpen,
      this.refusals, this.responses, this.refused, this.stops, this.stuck, this.sinks, this.quiet, this.bridge⟩
  | false => exact h.setAny r v.bits (.inl hk) hw

/-- A computed real in a non-negative register, found finite and positive. -/
theorem setGood (h : State.Reach W F s t) (r : Reg) (v : F32) (hv : v.isNaN = false) (hl : r.kind.legal v.bits = true)
    (hw : W.writable r = true := by decide +kernel) : State.Reach W F s (t.setF r v) := by
  unfold State.setF
  rw [hv]
  exact h.set r v.bits (fun _ _ => hl) hw

theorem setFlag (h : State.Reach W F s t) (r : Reg) (b : Bool) (hk : r.kind = .bool := by decide)
    (hw : W.writable r = true := by decide +kernel) : State.Reach W F s (t.setFlag r b) := by
  refine h.set r _ (fun _ _ => ?_) hw
  rw [hk]; cases b <;> rfl

theorem copy (h : State.Reach W F s t) (r other : Reg) (hk : r.kind = .f32 ∨ r.kind = .i32 := by decide)
    (hw : W.writable r = true := by decide +kernel) : State.Reach W F s (t.copy r other) := h.setAny r _ hk hw

theorem setVec (h : State.Reach W F s t) (r : Nat → Reg) (v : Vec2) (hk : (r 0).kind = .f32 ∧ (r 1).kind = .f32 := by decide)
    (hw : (W.writable (r 0) && W.writable (r 1)) = true := by decide +kernel) : State.Reach W F s (t.setVec r v) := by
  rw [Bool.and_eq_true] at hw
  exact (h.setF _ _ hk.1 hw.1).setF _ _ hk.2 hw.2

theorem copyVec (h : State.Reach W F s t) (r other : Nat → Reg)
    (hk : (r 0).kind = .f32 ∧ (r 1).kind = .f32 := by decide)
    (hw : (W.writable (r 0) && W.writable (r 1)) = true := by decide +kernel) :
    State.Reach W F s (t.copyVec r other) := by
  rw [Bool.and_eq_true] at hw
  exact (h.copy _ _ (.inl hk.1) hw.1).copy _ _ (.inl hk.2) hw.2

theorem unitFrame (h : State.Reach W F s t) (r : Nat → Reg) (hk : (r 0).kind = .f32 ∧ (r 1).kind = .f32 := by decide)
    (hw : (W.writable (r 0) && W.writable (r 1)) = true := by decide +kernel) :
    State.Reach W F s (t.unitFrame r) := by
  rw [Bool.and_eq_true] at hw
  exact (h.setAny _ _ (.inl hk.1) hw.1).setAny _ _ (.inl hk.2) hw.2

/-- Zeroing a list of registers. -/
theorem clear (h : State.Reach W F s t) (l : List Reg)
    (hw : l.all (fun r => W.writable r && r.kind.legal 0) = true := by decide +kernel) :
    State.Reach W F s (t.clear l) := by
  induction l generalizing t with
  | nil => exact h
  | cons r rs ih =>
    simp only [List.all_cons, Bool.and_eq_true] at hw
    exact ih (h.setConst r 0 hw.1.2 hw.1.1) hw.2

/-- Writing elements of an array of reals. -/
theorem setEach (h : State.Reach W F s t) (l : List (Reg × F32))
    (hw : l.all (fun p => W.writable p.1 && decide (p.1.kind = .f32)) = true) :
    State.Reach W F s (l.foldl (fun u p => u.setF p.1 p.2) t) := by
  induction l generalizing t with
  | nil => exact h
  | cons p ps ih =>
    simp only [List.all_cons, Bool.and_eq_true, decide_eq_true_eq] at hw
    exact ih (h.setF p.1 p.2 hw.1.2 hw.1.1) hw.2

theorem intLegal_iff {w : Word} : Kind.intLegal w = true ↔ w.toNat < 2147483648 := by
  simp [Kind.intLegal]

theorem intLegal_satInc {w : Word} (h : Kind.intLegal w = true) : Kind.intLegal (I32.satInc w) = true := by
  rw [intLegal_iff] at h ⊢
  unfold I32.satInc
  split
  · assumption
  · rename_i hne
    have h2 : w.toNat ≠ 2147483647 := fun hc => hne (BitVec.eq_of_toNat_eq (by simpa using hc))
    rw [BitVec.toNat_add]
    have h3 : BitVec.toNat (1 : I32) = 1 := rfl
    omega

/-- A saturating counter. -/
theorem count1 (h : State.Reach W F s t) (r : Reg) (hk : r.kind = .intNonNeg := by decide)
    (hw : W.writable r = true := by decide +kernel) : State.Reach W F s (t.count1 r) := by
  refine h.set r _ (fun _ ht => ?_) hw
  rw [hk]
  have hkind : Reg.kindOf r.num = some .intNonNeg := by
    simp only [Ranges.writable, Bool.and_eq_true, decide_eq_true_eq] at hw
    rw [hw.2, hk]
  exact intLegal_satInc (State.legal_word t ht hkind)

/-! ### Conditional execution -/

theorem when (h : State.Reach W F s t) (c : Bool) (f : State → State) (hf : ∀ u, State.Reach W F u (f u)) :
    State.Reach W F s (t.when c f) := by
  unfold State.when; split
  · exact h.trans (hf t)
  · exact h

theorem bindOr {α : Type} (h : State.Reach W F s t) (why : Fault) (v : Option α) (k : α → State) (hF : v = none → why ∈ F)
    (hk : ∀ a, v = some a → State.Reach W F t (k a)) : State.Reach W F s (t.bindOr why v k) := by
  unfold State.bindOr
  cases v with
  | none => exact h.poison why (hF rfl)
  | some a => exact h.trans (hk a rfl)

/-- A value that is defined in every sound state. -/
theorem bindOrNever {α : Type} (why : Fault) (v : Option α) (k : α → State) (hv : v = none → s.sound = true → False)
    (hk : ∀ a, v = some a → State.Reach W F s (k a)) : State.Reach W F s (s.bindOr why v k) := by
  unfold State.bindOr
  cases v with
  | none => exact poisonNever why (hv rfl)
  | some a => exact hk a rfl

end State.Reach

end Sys2Proof.Machine
end

