-- ==== Sys2Proof/Laws/ReachOps.lean ====
section
/-!
SUPPORT. What the shared operations of Machine/Ops.lean and Machine/Operands.lean can do: the sinks, the state transfers,
faults, HALT.
-/

namespace Sys2Proof.Machine

set_option Elab.async false

variable {s : State}

/-- The flags of the legs, the duty and the Z mask. -/
abbrev legRegs : Ranges := [(288, 300)]

theorem State.reach_classifyLeg (i : Nat) (hi : i < 3) : State.Reach legRegs [] s (s.classifyLeg i) := by
  have h1 : legRegs.writable (Reg.vsi_CF i) = true := by
    match i, hi with
    | 0, _ => decide +kernel
    | 1, _ => decide +kernel
    | 2, _ => decide +kernel
  have h2 : legRegs.writable (Reg.vsi_IF i) = true := by
    match i, hi with
    | 0, _ => decide +kernel
    | 1, _ => decide +kernel
    | 2, _ => decide +kernel
  have h3 : legRegs.writable (Reg.vsi_UF i) = true := by
    match i, hi with
    | 0, _ => decide +kernel
    | 1, _ => decide +kernel
    | 2, _ => decide +kernel
  exact (((State.Reach.refl _ _ s).setFlag _ _ rfl h1).setFlag _ _ rfl h2).setFlag _ _ rfl h3

theorem State.reach_classify : State.Reach legRegs [] s s.classify :=
  ((State.reach_classifyLeg 0 (by decide)).andThen (State.reach_classifyLeg 1 (by decide))).andThen
    (State.reach_classifyLeg 2 (by decide))

/-- The duty sink is called with counts in range, for the first time in this tick. -/
theorem State.reach_callDuty (d : Legs I32) (hd : SinkCall.ok (s.word 41) (.duty d.a d.b d.c) = true)
    (he : s.tl.emitted = false) : State.Reach legRegs [.dutyTwice] s (s.callDuty d) := by
  refine ⟨fun _ _ => rfl, rfl, fun h => h, rfl, rfl, rfl, rfl, rfl, rfl, rfl, fun _ _ h => .inl h,
    fun _ h => h, ⟨[.duty d.a d.b d.c], rfl, by simp [hd], by simp [he, SinkCall.isDuty]⟩, fun h => absurd (by simp) h,
    fun h => ?_⟩
  simp only [Bridge.ok, Bool.and_eq_true, State.callDuty_bridge] at h ⊢
  simp only [SinkCall.ok, dutyInRange, Bool.and_eq_true] at hd
  exact ⟨⟨⟨hd.1.1.1, hd.1.2.1⟩, hd.2.1⟩, h.2⟩

theorem State.reach_callZ (m : Word) (hm : m.toNat < 8) : State.Reach legRegs [] s (s.callZ m) := by
  refine ⟨fun _ _ => rfl, rfl, fun h => h, rfl, rfl, rfl, rfl, rfl, rfl, rfl, fun _ _ h => .inl h,
    fun _ h => h, ⟨[.z m], rfl, by simp [SinkCall.ok, hm], by simp [SinkCall.isDuty]⟩, fun _ => rfl, fun h => ?_⟩
  simp only [Bridge.ok, Bool.and_eq_true, State.callZ_bridge] at h ⊢
  exact ⟨h.1, by simp [hm]⟩

theorem State.dutyOk_all (d : Legs I32) :
    (s.dutyOk d.a && s.dutyOk d.b && s.dutyOk d.c) = SinkCall.ok (s.word 41) (.duty d.a d.b d.c) := rfl

/-- The three outcomes of `emit_duty` (46 R407). -/
theorem State.emitDuty_ok (d : Legs I32) (hd : SinkCall.ok (s.word 41) (.duty d.a d.b d.c) = true)
    (he : s.tl.emitted = false) : s.emitDuty d =
      ((((s.callDuty d).set (Reg.vsi_DC 0) d.a).set (Reg.vsi_DC 1) d.b).set (Reg.vsi_DC 2) d.c).classify := by
  unfold State.emitDuty
  rw [State.dutyOk_all, hd, he]
  rfl

theorem State.emitDuty_twice (d : Legs I32) (hd : SinkCall.ok (s.word 41) (.duty d.a d.b d.c) = true)
    (he : s.tl.emitted = true) : s.emitDuty d = s.poison .dutyTwice := by
  unfold State.emitDuty
  rw [State.dutyOk_all, hd, he]
  rfl

theorem State.emitDuty_range (d : Legs I32) (hd : SinkCall.ok (s.word 41) (.duty d.a d.b d.c) = false) :
    s.emitDuty d = s.poison .dutyOutOfRange := by
  unfold State.emitDuty
  rw [State.dutyOk_all, hd]
  rfl

/-- The call, the registers and the flags of an emitted duty. -/
theorem State.reach_emitDuty_ok (d : Legs I32) (hd : SinkCall.ok (s.word 41) (.duty d.a d.b d.c) = true)
    (he : s.tl.emitted = false) : State.Reach legRegs [.dutyTwice] s (s.emitDuty d) := by
  rw [State.emitDuty_ok d hd he]
  exact ((((State.reach_callDuty d hd he).setAny (Reg.vsi_DC 0) _).setAny (Reg.vsi_DC 1) _).setAny (Reg.vsi_DC 2) _).andThen
    State.reach_classify

/-- `emit_duty` of counts in range stops only at a second duty. -/
theorem State.reach_emitDuty_inRange (d : Legs I32) (hd : SinkCall.ok (s.word 41) (.duty d.a d.b d.c) = true) :
    State.Reach legRegs [.dutyTwice] s (s.emitDuty d) := by
  cases he : s.tl.emitted with
  | false => exact State.reach_emitDuty_ok d hd he
  | true => rw [State.emitDuty_twice d hd he]; exact (State.Reach.refl _ _ s).poison _

/-- `emit_duty`: it stops, or it is the one duty of this tick. -/
theorem State.reach_emitDuty (d : Legs I32) :
    State.Reach legRegs [.dutyOutOfRange, .dutyTwice] s (s.emitDuty d) := by
  cases hd : SinkCall.ok (s.word 41) (.duty d.a d.b d.c) with
  | true => exact (State.reach_emitDuty_inRange d hd).mono
  | false => rw [State.emitDuty_range d hd]; exact (State.Reach.refl _ _ s).poison _

/-- The counts (0, 0, 0) are in range whatever the resolution a sound state holds. -/
theorem State.zeroDuty_ok (h : s.sound = true) : SinkCall.ok (s.word 41) (.duty 0 0 0) = true := by
  have h1 := State.legal_word s h (n := 41) (k := .intNonNeg) (by decide +kernel)
  have h2 : (s.word 41).toNat < 2147483648 := Reach.intLegal_iff.mp h1
  have h3 : BitVec.sle (0 : I32) (s.word 41) = true := by
    rw [BitVec.sle_eq_decide, decide_eq_true_eq, BitVec.toInt_eq_toNat_cond (s.word 41), if_pos (by omega)]
    exact Int.natCast_nonneg _
  simp only [SinkCall.ok, dutyInRange, h3, Bool.and_true]
  decide

/-- A drawn count is one the duty sink takes. -/
theorem State.drawnCount_ok (hs : s.sound = true) (n : Nat) : dutyInRange (s.word 41) (s.drawnCount n) = true := by
  have h1 := State.legal_word s hs (n := 41) (k := .intNonNeg) (by decide +kernel)
  have h2 : (s.word 41).toNat < 2147483648 := State.Reach.intLegal_iff.mp h1
  have h3 : s.drawnCount n = BitVec.ofNat 32 (n % ((s.word 41).toNat + 1)) := rfl
  have h4 : n % ((s.word 41).toNat + 1) ≤ (s.word 41).toNat := by
    have := Nat.mod_lt n (y := (s.word 41).toNat + 1) (by omega); omega
  have h5 : (s.drawnCount n).toNat = n % ((s.word 41).toNat + 1) := by
    rw [h3, BitVec.toNat_ofNat]; omega
  simp only [dutyInRange, BitVec.sle_eq_decide, Bool.and_eq_true, decide_eq_true_eq]
  rw [BitVec.toInt_eq_toNat_cond (s.drawnCount n), BitVec.toInt_eq_toNat_cond (s.word 41), if_pos (by omega),
    if_pos (by omega), h5]
  exact ⟨Int.natCast_nonneg _, by exact_mod_cast h4⟩

theorem State.drawnDuty_ok (hs : s.sound = true) (d : Legs Nat) :
    SinkCall.ok (s.word 41) (.duty (s.drawnDuty d).a (s.drawnDuty d).b (s.drawnDuty d).c) = true := by
  simp only [SinkCall.ok, Bool.and_eq_true]
  exact ⟨⟨State.drawnCount_ok hs _, State.drawnCount_ok hs _⟩, State.drawnCount_ok hs _⟩

theorem State.reach_zFlags (m : Word) (i : Nat) (hi : i < 3) : State.Reach legRegs [] s (s.zFlags m i) := by
  have h1 : legRegs.writable (Reg.vsi_CF i) = true := by
    match i, hi with
    | 0, _ => decide +kernel
    | 1, _ => decide +kernel
    | 2, _ => decide +kernel
  have h2 : legRegs.writable (Reg.vsi_IF i) = true := by
    match i, hi with
    | 0, _ => decide +kernel
    | 1, _ => decide +kernel
    | 2, _ => decide +kernel
  have h3 : legRegs.writable (Reg.vsi_UF i) = true := by
    match i, hi with
    | 0, _ => decide +kernel
    | 1, _ => decide +kernel
    | 2, _ => decide +kernel
  unfold State.zFlags
  split
  · exact (((State.Reach.refl _ _ s).setFlag _ _ rfl h2).setFlag _ _ rfl h3).setFlag _ _ rfl h1
  · exact .refl _ _ s

theorem State.reach_emitZ (m : Word) (hm : m.toNat < 8) : State.Reach legRegs [] s (s.emitZ m) :=
  (((((State.reach_callZ m hm).setAny _ _).andThen (State.reach_zFlags m 0 (by decide))).andThen
    (State.reach_zFlags m 1 (by decide))).andThen (State.reach_zFlags m 2 (by decide)))

/-! ### The command FSM's transfers -/

/-- The command FSM's state, phase and timer. -/
abbrev fsmRegs : Ranges := [(464, 465), (468, 469)]

theorem FsmState.code_legal (q : FsmState) : (Kind.enum 11).legal q.code = true := by cases q <;> decide

theorem Errno.code_legal (e : Errno) : (Kind.enum 10).legal e.code = true := by cases e <;> decide

theorem State.reach_enterState (q : FsmState) : State.Reach fsmRegs [] s (s.enterState q) :=
  ((((State.Reach.refl _ _ s).set Reg.fsm_state _ (fun _ _ => FsmState.code_legal q)).setConst _ _).setConst _ _).setConst _ _

theorem State.reach_nextPhase (p n : I32) (hp : Kind.intLegal p = true)
    (hn : s.sound = true → Kind.intLegal n = true) : State.Reach fsmRegs [] s (s.nextPhase p n) :=
  (((State.Reach.refl _ _ s).set Reg.fsm_phase _ (fun _ _ => hp)).setConst _ _).set Reg.tm_end _ (fun h _ => hn h)

/-- A phase armed with a timer a register of the first state gives. -/
theorem State.Reach.nextPhase {W : Ranges} {F : List Fault} {t : State} (h : State.Reach W F s t) (p n : I32)
    (hp : Kind.intLegal p = true) (hn : s.sound = true → Kind.intLegal n = true)
    (hw : Ranges.within fsmRegs W = true := by decide +kernel) : State.Reach W F s (t.nextPhase p n) := by
  have h1 := h.andThen ((((State.Reach.refl fsmRegs [] t).set Reg.fsm_phase p (fun _ _ => hp)).setConst Reg.tm_value 0)) hw
    (hF := nofun)
  refine h1.set Reg.tm_end n (fun hs _ => hn hs) ?_
  have h2 : fsmRegs.writable Reg.tm_end = true := by decide +kernel
  simp only [Ranges.writable, Bool.and_eq_true] at h2 ⊢
  exact ⟨⟨⟨Ranges.has_of_within hw h2.1.1.1, rfl⟩, h2.1.2⟩, h2.2⟩

theorem State.Reach.countThen {W : Ranges} {F : List Fault} {t : State} (h : State.Reach W F s t)
    (done : State → State) (hd : ∀ u, State.Reach W F u (done u))
    (hw : W.writable Reg.tm_value = true := by decide +kernel) : State.Reach W F s (t.countThen done) := by
  unfold State.countThen
  split
  · exact (h.count1 _ rfl hw).trans (hd _)
  · exact h.count1 _ rfl hw

/-! ### Faults -/

/-- The registers of a fault. -/
abbrev faultRegs : Ranges := [(466, 467)]

theorem State.reach_recordErrno (e : Errno) : State.Reach faultRegs [] s (s.recordErrno e) := by
  unfold State.recordErrno
  split
  · exact (State.Reach.refl _ _ s).set Reg.fsm_errno _ (fun _ _ => Errno.code_legal e)
  · exact .refl _ _ s

theorem State.reach_raise (e : Errno) (early : Bool) : State.Reach faultRegs [] s (s.raise e early) := by
  unfold State.raise
  split
  · have h := State.reach_recordErrno (s := s) e
    exact ⟨h.word, h.resolution, h.sound, h.params, h.tick, h.inbox, h.guardOpen, h.refusals, h.responses,
      h.refused, h.stops, h.stuck, h.sinks, h.quiet, h.bridge⟩
  · exact (State.reach_recordErrno e).setConst _ _

theorem State.reach_applyDeferred : State.Reach faultRegs [] s s.applyDeferred := by
  unfold State.applyDeferred
  split
  · exact (State.Reach.refl _ _ s).setConst _ _
  · exact .refl _ _ s

/-! ### HALT -/

/-- The registers of `loops_reset()` (47 R450). -/
abbrev loopResetRegs : Ranges := [(432, 438), (444, 445), (448, 448)]

theorem State.reach_loopsReset : State.Reach loopResetRegs [] s s.loopsReset := (State.Reach.refl _ _ s).clear _

/-- The registers of HALT. -/
abbrev haltRegs : Ranges :=
  [(288, 300), (320, 320), (389, 389), (392, 392), (432, 438), (444, 445), (448, 448), (464, 465), (468, 469)]

/-- HALT phase 0, for a duty operation `t` known to reach only the stops `F`. -/
theorem State.reach_haltEntry_of {F : List Fault}
    (h : State.Reach legRegs F (s.set Reg.lu_mode LuMode.disabled.code)
      ((s.set Reg.lu_mode LuMode.disabled.code).emitDuty ⟨0, 0, 0⟩)) : State.Reach haltRegs F s s.haltEntry := by
  have h0 : State.Reach haltRegs F s (s.set Reg.lu_mode LuMode.disabled.code) := (State.Reach.refl _ _ s).setConst _ _
  exact (((((h0.andThen h (hF := fun f hf => hf)).andThen (State.reach_emitZ 7 (by decide)) (hF := nofun)).andThen
    State.reach_loopsReset (hF := nofun)).setConst Reg.kalman_pending 0).setConst Reg.hfi_inject 0).setConst
    Reg.fsm_phase 1 |>.setConst Reg.tm_value 0 |>.setFrom Reg.tm_end _ (fun h1 _ => h1)

/-- HALT phase 0 stops only at a second duty. -/
theorem State.reach_haltEntry (h : s.sound = true) : State.Reach haltRegs [.dutyTwice] s s.haltEntry := by
  refine State.reach_haltEntry_of (State.reach_emitDuty_inRange _ (State.zeroDuty_ok ?_))
  exact ((State.Reach.refl haltRegs [] s).setConst Reg.lu_mode LuMode.disabled.code).sound h

/-- HALT phase 0, whatever the state. -/
theorem State.reach_haltEntry_any : State.Reach haltRegs [.dutyOutOfRange, .dutyTwice] s s.haltEntry :=
  State.reach_haltEntry_of (State.reach_emitDuty _)

theorem State.reach_haltReturn : State.Reach fsmRegs [] s s.haltReturn :=
  (State.Reach.refl _ _ s).countThen _ (fun _ => State.reach_enterState _)

end Sys2Proof.Machine
end

