-- ==== Sys2Proof/Laws/ReachFeedback.lean ====
section
/-!
SUPPORT. What steps S1 to S5, the current projection and the mileage can do (spec/41_tick_feedback.md).
-/

namespace Sys2Proof.Machine

set_option Elab.async false

variable {s : State}

/-- The feedback registers (10 R45). -/
abbrev feedbackRegs : Ranges := [(256, 282)]

theorem State.reach_intake (fb : Feedback) : State.Reach feedbackRegs [] s (s.intake fb) :=
  ((((State.Reach.refl _ _ s).setAny _ _).setAny _ _).setAny _ _).setAny _ _

theorem State.reach_calibrateTerminals (fb : Feedback) : State.Reach feedbackRegs [] s (s.calibrateTerminals fb) :=
  (((State.Reach.refl _ _ s).setF _ _).setF _ _).setF _ _

theorem State.reach_calibrate (fb : Feedback) : State.Reach feedbackRegs [] s (s.calibrate fb) :=
  (((((State.Reach.refl _ _ s).setF _ _).setF _ _).when _ _ (fun u => (State.Reach.refl _ _ u).setF _ _)).setF _ _).when
    _ _ (fun _ => State.reach_calibrateTerminals fb)

theorem State.reach_keepCurrents (old : State) : State.Reach feedbackRegs [] s (s.keepCurrents old) :=
  (((State.Reach.refl _ _ s).setAny _ _).setAny _ _).setAny _ _

theorem State.reach_rebuild3 : State.Reach feedbackRegs [] s s.rebuild3 := by
  unfold State.rebuild3
  dsimp only
  split_ifs
  · exact (State.Reach.refl _ _ s).setF _ _
  · exact (State.Reach.refl _ _ s).setF _ _
  · exact (State.Reach.refl _ _ s).setF _ _
  · exact (State.Reach.refl _ _ s).setF _ _
  · exact .refl _ _ s

theorem State.reach_rebuild2 : State.Reach feedbackRegs [] s s.rebuild2 := by
  unfold State.rebuild2
  split_ifs
  · exact (State.Reach.refl _ _ s).setF _ _
  · exact .refl _ _ s

theorem State.reach_rebuild (old : State) : State.Reach feedbackRegs [] s (s.rebuild old) := by
  unfold State.rebuild
  split_ifs
  · exact State.reach_keepCurrents old
  · exact State.reach_rebuild3
  · exact State.reach_rebuild2

theorem State.reach_clarkeCurrents : State.Reach feedbackRegs [] s s.clarkeCurrents := by
  unfold State.clarkeCurrents
  split_ifs
  · exact ((State.Reach.refl _ _ s).setF _ _).setF _ _
  · exact ((State.Reach.refl _ _ s).copy _ _).copy _ _

theorem State.reach_reconstruct (old : State) : State.Reach feedbackRegs [] s (s.reconstruct old) :=
  (State.reach_rebuild old).trans State.reach_clarkeCurrents

theorem State.reach_measure (fb : Feedback) : State.Reach feedbackRegs [] s (s.measure fb) :=
  ((State.reach_intake fb).trans (State.reach_calibrate fb)).trans (State.reach_reconstruct s)

theorem State.reach_faultCheck : State.Reach faultRegs [] s s.faultCheck :=
  ((State.Reach.refl _ _ s).when _ _ (fun _ => State.reach_raise _ _)).when _ _ (fun _ => State.reach_raise _ _)

theorem State.reach_tvmPhase (out u : Reg) (taps : Nat → Reg) (p : Nat) (ho : out.kind = .f32)
    (hw : (feedbackRegs.writable out && feedbackRegs.writable (Reg.tvm_hist (2 * p)) &&
      feedbackRegs.writable (Reg.tvm_hist (2 * p + 1))) = true) :
    State.Reach feedbackRegs [] s (s.tvmPhase out u taps p) := by
  simp only [Bool.and_eq_true] at hw
  exact (((State.Reach.refl _ _ s).when _ _ (fun v => (State.Reach.refl _ _ v).setF _ _ ho hw.1.1)).copy _ _
    (.inl rfl) hw.2).copy _ _ (.inl rfl) hw.1.2

theorem State.reach_tvmClarke : State.Reach feedbackRegs [] s s.tvmClarke := by
  unfold State.tvmClarke
  split_ifs
  · exact ((State.Reach.refl _ _ s).setF _ _).setF _ _
  · exact ((State.Reach.refl _ _ s).setF _ _).setF _ _

theorem State.reach_tvmRun : State.Reach feedbackRegs [] s s.tvmRun :=
  (((((State.Reach.refl _ _ s).setFlag _ _).trans (State.reach_tvmPhase _ _ _ 0 rfl (by decide +kernel))).trans
    (State.reach_tvmPhase _ _ _ 1 rfl (by decide +kernel))).trans
      (State.reach_tvmPhase _ _ _ 2 rfl (by decide +kernel))).when _ _ (fun _ => State.reach_tvmClarke)

theorem State.reach_tvmFilter : State.Reach feedbackRegs [] s s.tvmFilter := by
  unfold State.tvmFilter
  split_ifs
  · exact State.reach_tvmRun
  · exact (State.Reach.refl _ _ s).setFlag _ _

/-- Steps S1 to S5 write the feedback registers, the fault code and the request slot. -/
abbrev ingestRegs : Ranges := [(256, 282), (466, 467)]

theorem State.reach_ingest (fb : Feedback) : State.Reach ingestRegs [] s (s.ingest fb) :=
  (((State.Reach.refl _ _ s).andThen (State.reach_measure fb)).andThen State.reach_faultCheck).andThen
    State.reach_tvmFilter

theorem State.reach_projectCurrent : State.Reach [(269, 270)] [] s s.projectCurrent :=
  ((State.Reach.refl _ _ s).setF _ _).setF _ _

theorem State.reach_mileage : State.Reach [(452, 455)] [] s s.mileage := by
  unfold State.mileage
  split_ifs
  · exact .refl _ _ s
  · exact ((State.Reach.refl _ _ s).setF _ _).setF _ _
  · exact ((State.Reach.refl _ _ s).setF _ _).setF _ _

end Sys2Proof.Machine
end

