-- ==== Sys2Proof/Laws/ReachLoops.lean ====
section
/-!
SUPPORT. What the control loops can do (spec/45_loops.md).
-/

namespace Sys2Proof.Machine

set_option Elab.async false

variable {s : State}

/-- The registers of the control loops: the issued rotating-frame voltage, the injection flag and the loop state. -/
abbrev loopRegsAll : Ranges := [(309, 310), (392, 392), (432, 442), (444, 445), (448, 448)]

theorem State.reach_power : State.Reach loopRegsAll [] s s.power :=
  ((((State.Reach.refl _ _ s).setF _ _).setF _ _).setF _ _).setF _ _

theorem State.reach_weakening : State.Reach loopRegsAll [] s s.weakening := by
  unfold State.weakening
  split_ifs
  · exact (State.Reach.refl _ _ s).setAny _ _
  · exact (State.Reach.refl _ _ s).setF _ _

theorem State.reach_storeTargets : State.Reach loopRegsAll [] s s.storeTargets :=
  ((State.Reach.refl _ _ s).setF _ _).setF _ _

theorem State.reach_track : State.Reach loopRegsAll [] s s.track := by
  unfold State.track
  split_ifs
  · exact ((State.Reach.refl _ _ s).copy _ _).copy _ _
  · exact ((State.Reach.refl _ _ s).setF _ _).setF _ _

theorem State.reach_integrate : State.Reach loopRegsAll [] s s.integrate :=
  ((State.Reach.refl _ _ s).setF _ _).setF _ _

theorem State.reach_command : State.Reach loopRegsAll [] s s.command :=
  (((State.Reach.refl _ _ s).when _ _ (fun u => (State.Reach.refl _ _ u).setConst _ _)).setF _ _).setF _ _

theorem State.reach_currentLoop : State.Reach loopRegsAll [] s s.currentLoop :=
  ((((State.reach_power.when _ _ (fun _ => State.reach_weakening)).trans State.reach_storeTargets).trans
    State.reach_track).trans State.reach_integrate).trans State.reach_command

theorem State.reach_speedRamp : State.Reach loopRegsAll [] s s.speedRamp := by
  unfold State.speedRamp
  dsimp only
  split_ifs
  · exact (State.Reach.refl _ _ s).setF _ _
  · exact (State.Reach.refl _ _ s).setF _ _

theorem State.reach_speedReg : State.Reach loopRegsAll [] s s.speedReg := (State.Reach.refl _ _ s).setF _ _

theorem State.reach_speedLoop : State.Reach loopRegsAll [] s s.speedLoop := by
  unfold State.speedLoop
  split_ifs
  · exact ((State.Reach.refl _ _ s).copy _ _).setAny _ _
  · exact ((State.Reach.refl _ _ s).when _ _ (fun _ => State.reach_speedRamp)).trans State.reach_speedReg

theorem State.reach_locationRamp : State.Reach loopRegsAll [] s s.locationRamp := by
  unfold State.locationRamp
  split_ifs
  · exact (State.Reach.refl _ _ s).copy _ _
  · exact (State.Reach.refl _ _ s).setF _ _

theorem State.reach_locationLoop : State.Reach loopRegsAll [] s s.locationLoop :=
  State.reach_locationRamp.trans ((State.Reach.refl _ _ _).setF _ _)

end Sys2Proof.Machine
end

