-- ==== Sys2Proof/Laws/ReachObservers.lean ====
section
/-!
SUPPORT. What the observers, the zone classifier, the lock guard and HFI can do (spec/43_observers.md).
-/

namespace Sys2Proof.Machine

set_option Elab.async false

variable {s : State}

/-- The estimator's registers but for the zone: flux, EKF and HFI (10 R47). -/
abbrev fluxRegs : Ranges := [(344, 346), (348, 356), (360, 389), (392, 398)]

/-- The zone and its counters. -/
abbrev zoneRegs : Ranges := [(347, 349), (354, 354)]

/-- Both. -/
abbrev estimatorRegs : Ranges := [(344, 356), (360, 389), (392, 398)]

theorem State.Reach.setArr {W : Ranges} {F : List Fault} {t : State} (h : State.Reach W F s t) (r : Nat → Reg)
    (l : List Nat) (v : Nat → F32)
    (hw : l.all (fun i => W.writable (r i) && decide ((r i).kind = .f32)) = true := by decide +kernel) :
    State.Reach W F s (t.setArr r l v) := by
  induction l generalizing t with
  | nil => exact h
  | cons i is ih =>
    simp only [List.all_cons, Bool.and_eq_true, decide_eq_true_eq] at hw
    exact ih (h.setF _ _ hw.1.2 hw.1.1) hw.2

theorem State.reach_pll (Fn : Vec2) : State.Reach fluxRegs [] s (s.pll Fn) :=
  ((State.Reach.refl _ _ s).setF _ _).setVec _ _

theorem State.reach_ortegaRun (u : Vec2) : State.Reach fluxRegs [] s (s.ortegaRun u) := by
  unfold State.ortegaRun
  dsimp only
  split_ifs
  · exact ((State.Reach.refl _ _ s).setVec _ _).trans (State.reach_pll _)
  · exact (((State.Reach.refl _ _ s).setVec _ _).setF _ _).trans (State.reach_pll _)

theorem State.reach_ortegaStep : State.Reach fluxRegs [] s s.ortegaStep := by
  unfold State.ortegaStep
  split_ifs
  · exact State.reach_ortegaRun _
  · exact .refl _ _ s
  · exact State.reach_ortegaRun _

theorem State.reach_kalmanCorrect : State.Reach fluxRegs [] s s.kalmanCorrect := by
  unfold State.kalmanCorrect
  split_ifs
  · exact ((((State.Reach.refl _ _ s).setVec _ _).setVec _ _).setF _ _).setFlag _ _
  · exact (State.Reach.refl _ _ s).setFlag _ _

theorem State.reach_gainUpdate : State.Reach fluxRegs [] s s.gainUpdate := by
  unfold State.gainUpdate
  split_ifs
  · exact ((State.Reach.refl _ _ s).setArr _ _ _).setArr _ _ _
  · exact (State.Reach.refl _ _ s).clear _

theorem State.reach_kalmanAdvance : State.Reach fluxRegs [] s s.kalmanAdvance :=
  ((((State.Reach.refl _ _ s).setVec _ _).setVec _ _).setArr _ _ _).trans State.reach_gainUpdate

theorem State.reach_kalmanPostponed : State.Reach fluxRegs [] s s.kalmanPostponed := by
  unfold State.kalmanPostponed
  split_ifs
  · exact ((((State.Reach.refl _ _ s).setFlag _ _).copy _ _).copy _ _).trans State.reach_kalmanAdvance
  · exact (State.Reach.refl _ _ s).setFlag _ _

/-! ### The zone -/

theorem Zone.code_legal (z : Zone) : (Kind.enum 4).legal z.code = true := by cases z <;> decide

theorem State.reach_setZone (z : Zone) : State.Reach zoneRegs [] s (s.setZone z) :=
  (State.Reach.refl _ _ s).set Reg.flux_ZONE _ (fun _ _ => Zone.code_legal z)

/-- The four zones are all the codes a sound state holds. -/
theorem State.zone_cases (h : s.sound = true) : s.word 347 = 0 ∨ s.word 347 = 1 ∨ s.word 347 = 2 ∨ s.word 347 = 3 := by
  have h1 := State.legal_word s h (n := 347) (k := .enum 4) (by decide +kernel)
  simp only [Kind.legal, Nat.blt_eq] at h1
  have h2 : ∀ k : Nat, (s.word 347).toNat = k → s.word 347 = BitVec.ofNat 32 k := fun k hk => by
    rw [← hk, BitVec.ofNat_toNat, BitVec.setWidth_eq]
  generalize hn : (s.word 347).toNat = n at h1
  match n, h1 with
  | 0, _ => exact .inl (h2 0 hn)
  | 1, _ => exact .inr (.inl (h2 1 hn))
  | 2, _ => exact .inr (.inr (.inl (h2 2 hn)))
  | 3, _ => exact .inr (.inr (.inr (h2 3 hn)))

/-- Where a case analysis on the zone ends: LOCKED, or an illegal code. -/
theorem State.Reach.zonePoison {W : Ranges} {F : List Fault} (h0 : s.zoneIs .locked = false)
    (h1 : s.zoneIs .none = false) (h2 : s.zoneIs .uncertain = false) (h3 : s.zoneIs .high = false) :
    State.Reach W F s (s.poison .illegalCode) := by
  refine State.Reach.poisonNever _ (fun ht => ?_)
  simp only [State.zoneIs, Zone.code, beq_eq_false_iff_ne, ne_eq] at h0 h1 h2 h3
  rcases State.zone_cases ht with hc | hc | hc | hc <;> simp_all

theorem State.reach_zoneFilter : State.Reach zoneRegs [] s s.zoneFilter := (State.Reach.refl _ _ s).setF _ _

theorem State.zoneFilter_zone (z : Zone) : s.zoneFilter.zoneIs z = s.zoneIs z := by
  have h : s.zoneFilter.word 347 = s.word 347 :=
    ((State.Reach.refl [(348, 348)] [] s).setF Reg.flux_lpf_wS _).word 347 (by decide)
  simp [State.zoneIs, h]

theorem State.reach_zoneMove (hl : s.zoneIs .locked = false) : State.Reach zoneRegs [] s s.zoneMove := by
  unfold State.zoneMove
  split_ifs with h1 h2 h3 h4 h5 h6 h7
  · exact (State.reach_setZone _).setConst _ _
  · exact .refl _ _ s
  · exact ((State.Reach.refl _ _ s).count1 _).when _ _ (fun _ => State.reach_setZone _)
  · exact (State.reach_setZone _).setConst _ _
  · exact (State.Reach.refl _ _ s).setConst _ _
  · exact (State.reach_setZone _).setConst _ _
  · exact .refl _ _ s
  · exact State.Reach.zonePoison hl (by simpa using h1) (by simpa using h3) (by simpa using h6)

theorem State.reach_zoneStep : State.Reach zoneRegs [] s s.zoneStep := by
  unfold State.zoneStep
  split_ifs with h
  · exact .refl _ _ s
  · exact State.reach_zoneFilter.trans
      (State.reach_zoneMove (by rw [State.zoneFilter_zone]; simpa using h))

theorem State.reach_detachCount : State.Reach zoneRegs [] s s.detachCount := by
  unfold State.detachCount
  split_ifs
  · exact (State.Reach.refl _ _ s).count1 _
  · exact (State.Reach.refl _ _ s).setConst _ _

theorem State.detachCount_zone (z : Zone) : s.detachCount.zoneIs z = s.zoneIs z := by
  have h : s.detachCount.word 347 = s.word 347 := by
    unfold State.detachCount
    split_ifs
    · exact ((State.Reach.refl [(354, 354)] [] s).count1 Reg.flux_detach_tm).word 347 (by decide)
    · exact ((State.Reach.refl [(354, 354)] [] s).setConst Reg.flux_detach_tm 0).word 347 (by decide)
  simp [State.zoneIs, h]

theorem State.reach_zoneDetachedMove (hl : s.zoneIs .locked = false) :
    State.Reach zoneRegs [] s s.zoneDetachedMove := by
  unfold State.zoneDetachedMove
  dsimp only
  split_ifs with h1 h2 h3 h4
  · exact (State.Reach.refl _ _ s).when _ _ (fun _ => State.reach_setZone _)
  · exact State.reach_setZone _
  · exact (State.Reach.refl _ _ s).when _ _ (fun _ => State.reach_setZone _)
  · exact (State.Reach.refl _ _ s).when _ _ (fun _ => State.reach_setZone _)
  · exact State.Reach.zonePoison hl (by simpa using h1) (by simpa using h2) (by simpa using h4)

theorem State.reach_zoneDetached : State.Reach zoneRegs [] s s.zoneDetached := by
  unfold State.zoneDetached
  split_ifs with h
  · exact .refl _ _ s
  · exact (State.reach_zoneFilter.trans State.reach_detachCount).trans
      (State.reach_zoneDetachedMove (by
        rw [State.detachCount_zone, State.zoneFilter_zone]; simpa using h))

/-! ### The lock guard and HFI -/

theorem State.reach_negVec (r : Nat → Reg) (hk : (r 0).kind = .f32 ∧ (r 1).kind = .f32)
    (hw : (estimatorRegs.writable (r 0) && estimatorRegs.writable (r 1)) = true) :
    State.Reach estimatorRegs [] s (s.negVec r) := (State.Reach.refl _ _ s).setVec _ _ hk hw

theorem State.reach_lockFlip : State.Reach estimatorRegs [] s s.lockFlip :=
  (((((((State.reach_negVec Reg.flux_F (by decide) (by decide +kernel)).setF _ _).trans
    (State.reach_negVec Reg.flux_X (by decide) (by decide +kernel))).trans
      (State.reach_negVec Reg.kalman_X (by decide) (by decide +kernel))).clear _).clear _).setAny _ _).when _ _
        (fun _ => State.reach_setZone _ |>.mono)

theorem State.reach_lockGuard : State.Reach estimatorRegs [] s s.lockGuard :=
  ((State.Reach.refl _ _ s).when _ _ (fun u =>
    ((State.Reach.refl _ _ u).setF _ _).when _ _ (fun _ => State.reach_lockFlip))).copyVec _ _

/-- The HFI registers. -/
abbrev hfiRegs : Ranges := [(392, 398)]

theorem State.reach_hfiDemand : State.Reach hfiRegs [] s s.hfiDemand :=
  ((State.Reach.refl _ _ s).setVec _ _).setFlag _ _

theorem State.reach_hfiFlip : State.Reach hfiRegs [] s s.hfiFlip :=
  (State.Reach.refl _ _ s).when _ _ (fun u => ((State.Reach.refl _ _ u).setVec _ _).setAny _ _)

theorem State.reach_hfiReference : State.Reach hfiRegs [] s s.hfiReference :=
  (((State.Reach.refl _ _ s).setF _ _).setVec _ _).when _ _ (fun u =>
    ((State.Reach.refl _ _ u).setF _ _).trans State.reach_hfiFlip)

theorem State.reach_hfiTake (r : HfiResult) : State.Reach hfiRegs [] s (s.hfiTake r) :=
  (((State.Reach.refl _ _ s).setF _ _).setVec _ _).setF _ _

theorem State.reach_hfiDemod : State.Reach hfiRegs [] s s.hfiDemod := by
  unfold State.hfiDemod
  split
  · exact State.reach_hfiReference
  · exact State.reach_hfiTake _

end Sys2Proof.Machine
end

