-- ==== Sys2Proof/Laws/ReachSensors.lean ====
section
/-!
SUPPORT. What the sensor trackers can do (spec/44_sensors.md).
-/

namespace Sys2Proof.Machine

set_option Elab.async false

variable {s : State}

/-- The sensors' registers (10 R48). -/
abbrev sensorRegs : Ranges := [(400, 403), (408, 416), (420, 428)]

/-- What the trackers write: the sensors' registers, and for a Hall fault the selection and the fault registers. -/
abbrev trackerRegs : Ranges := [(4, 4), (400, 403), (408, 416), (420, 428), (466, 467)]

theorem State.reach_hallTrack : State.Reach trackerRegs [] s s.hallTrack := by
  unfold State.hallTrack
  split_ifs
  · exact (((State.Reach.refl _ _ s).setConst _ _).setF _ _).setVec _ _
  · exact ((State.Reach.refl _ _ s).setConst _ _).setVec _ _

theorem State.reach_hallFault : State.Reach trackerRegs [] s s.hallFault :=
  ((State.Reach.refl _ _ s).setConst _ _).andThen (State.reach_raise _ _)

theorem State.reach_hallInvalid : State.Reach trackerRegs [] s s.hallInvalid :=
  (((State.Reach.refl _ _ s).count1 _).setVec _ _).when _ _ (fun _ => State.reach_hallFault)

theorem State.reach_hallStep : State.Reach trackerRegs [] s s.hallStep := by
  unfold State.hallStep
  split_ifs
  · exact State.reach_hallTrack
  · exact State.reach_hallInvalid

/-! ### The encoder -/

theorem I32.mod_isSome {a n : I32} (hn : Kind.intLegal n = true) (h0 : n ≠ 0) : ∃ m, I32.mod a n = some m := by
  have h1 : n.toNat < 2147483648 := State.Reach.intLegal_iff.mp hn
  have h2 : n.toNat ≠ 0 := fun hc => h0 (BitVec.eq_of_toNat_eq (by simpa using hc))
  have h3 : BitVec.slt (0 : I32) n = true := by
    rw [BitVec.slt_eq_decide, decide_eq_true_eq, BitVec.toInt_eq_toNat_cond n, if_pos (by omega)]
    have : BitVec.toInt (0 : I32) = 0 := rfl
    omega
  exact ⟨_, by rw [I32.mod, if_pos h3]⟩

theorem State.eppr_legal (h : s.sound = true) : Kind.intLegal (s.i Reg.eabi_EPPR) = true :=
  State.legal_word s h (n := 130) (k := .intNonNeg) (by decide +kernel)

theorem State.reach_abiInit (ep : I32) : State.Reach sensorRegs [] s (s.abiInit ep) :=
  (State.Reach.refl _ _ s).when _ _ (fun u =>
    ((State.Reach.refl _ _ u).when _ _ (fun v => (State.Reach.refl _ _ v).setAny _ _)).setConst _ _)

theorem State.reach_abiInterp (d : I32) : State.Reach sensorRegs [] s (s.abiInterp d) := by
  unfold State.abiInterp
  split_ifs
  · exact (State.Reach.refl _ _ s).setF _ _
  · exact (State.Reach.refl _ _ s).setAny _ _

theorem State.reach_abiUnwrap (d c m : I32) : State.Reach sensorRegs [] s (s.abiUnwrap d c m) :=
  (((((((State.Reach.refl _ _ s).setAny _ _).setAny _ _).when _ _ (fun u => (State.Reach.refl _ _ u).setF _ _)).trans
    (State.reach_abiInterp d)).setVec _ _).setF _ _)

theorem State.reach_abiAdvance (d : I32) (h0 : s.i Reg.eabi_EPPR ≠ 0) :
    State.Reach sensorRegs [] s (s.abiAdvance d) := by
  refine State.Reach.bindOrNever _ _ _ (fun hn ht => ?_) (fun m _ => State.reach_abiUnwrap _ _ _)
  obtain ⟨m, hm⟩ := I32.mod_isSome (a := s.i Reg.eabi_count + d) (State.eppr_legal ht) h0
  rw [hm] at hn
  exact absurd hn (by simp)

theorem State.reach_abiStep : State.Reach sensorRegs [] s s.abiStep := by
  unfold State.abiStep
  split_ifs with h0
  · exact .refl _ _ s
  · refine State.Reach.bindOrNever _ _ _ (fun hn ht => ?_) (fun ep _ => ?_)
    · obtain ⟨m, hm⟩ := I32.mod_isSome (a := s.i Reg.fb_EP) (State.eppr_legal ht) h0
      unfold State.abiCount at hn
      rw [hm] at hn
      split_ifs at hn
    · have h1 : State.Reach sensorRegs [] s ((s.abiInit ep).set Reg.eabi_EP_prev ep) :=
        (State.reach_abiInit ep).setAny _ _
      refine h1.trans (State.reach_abiAdvance _ ?_)
      have h2 : ((s.abiInit ep).set Reg.eabi_EP_prev ep).i Reg.eabi_EPPR = s.i Reg.eabi_EPPR :=
        h1.word 130 (by decide)
      rw [h2]; exact h0

/-! ### The resolver and the dispatch -/

theorem State.reach_sincosQuadrant : State.Reach sensorRegs [] s s.sincosQuadrant := by
  unfold State.sincosQuadrant
  dsimp only
  split_ifs
  · exact ((State.Reach.refl _ _ s).setAny _ _).setAny _ _
  · exact ((State.Reach.refl _ _ s).setAny _ _).setAny _ _
  · exact (State.Reach.refl _ _ s).setAny _ _

theorem State.reach_sincosAngle : State.Reach sensorRegs [] s s.sincosAngle :=
  ((((State.Reach.refl _ _ s).when _ _ (fun u => (State.Reach.refl _ _ u).setF _ _)).setVec _ _).setF _ _).setConst _ _

theorem State.reach_sincosStep : State.Reach sensorRegs [] s s.sincosStep :=
  ((((State.Reach.refl _ _ s).setF _ _).setF _ _).trans State.reach_sincosQuadrant).trans State.reach_sincosAngle

theorem State.reach_sensorTrackers : State.Reach trackerRegs [] s s.sensorTrackers :=
  (((State.Reach.refl _ _ s).when _ _ (fun _ => State.reach_hallStep)).when _ _ (fun _ =>
    State.reach_abiStep.mono)).when _ _ (fun _ => State.reach_sincosStep.mono)

end Sys2Proof.Machine
end

