-- ==== Sys2Proof/Laws/ReachVoltage.lean ====
section
/-!
SUPPORT. What the commutation mapping can do (spec/46_voltage.md), and that it emits at most one duty.
-/

namespace Sys2Proof.Machine

set_option Elab.async false

variable {s : State}

/-- The VSI registers (10 R46). -/
abbrev vsiRegs : Ranges := [(288, 312)]

theorem State.reach_limiter (lim : Bool) : State.Reach vsiRegs [] s (s.limiter lim) := by
  unfold State.limiter
  split_ifs
  · exact ((State.Reach.refl _ _ s).setFlag _ _).count1 _
  · exact ((State.Reach.refl _ _ s).setFlag _ _).setConst _ _

/-- A positive count less one is still a legal count. -/
theorem intLegal_pred {w : I32} (hp : BitVec.slt (0 : I32) w = true) : Kind.intLegal (w - 1) = true := by
  rw [State.Reach.intLegal_iff]
  rw [BitVec.slt_eq_decide, decide_eq_true_eq] at hp
  have h0 : BitVec.toInt (0 : I32) = 0 := rfl
  rw [h0, BitVec.toInt_eq_toNat_cond] at hp
  have h1 : BitVec.toNat (1 : I32) = 1 := rfl
  rw [BitVec.toNat_sub, h1]
  split at hp <;> omega

theorem State.reach_bootLeg (i : Nat) (v : I32) (hi : i < 3) : State.Reach vsiRegs [] s (s.bootLeg i v) := by
  have h1 : vsiRegs.writable (Reg.vsi_rch i) = true := by
    match i, hi with
    | 0, _ => decide +kernel
    | 1, _ => decide +kernel
    | 2, _ => decide +kernel
  have h2 : vsiRegs.writable (Reg.vsi_bst i) = true := by
    match i, hi with
    | 0, _ => decide +kernel
    | 1, _ => decide +kernel
    | 2, _ => decide +kernel
  unfold State.bootLeg
  split_ifs with hp
  · exact ((State.Reach.refl _ _ s).set (Reg.vsi_rch i) _ (fun _ _ => intLegal_pred hp) h1).setConst _ _ rfl h2
  · exact ((State.Reach.refl _ _ s).setFrom (Reg.vsi_rch i) Reg.tm_recharge.num (fun h _ => h)
      (show Reg.kindOf 45 = some Kind.intNonNeg by decide +kernel) h1).setConst _ _ rfl h2
  · exact (State.Reach.refl _ _ s).count1 _ rfl h2
  · exact (State.Reach.refl _ _ s).setConst _ _ rfl h2

theorem State.reach_bootstrap (d : Legs I32) : State.Reach vsiRegs [] s (s.bootstrap d) :=
  ((State.reach_bootLeg 0 _ (by decide)).trans (State.reach_bootLeg 1 _ (by decide))).trans
    (State.reach_bootLeg 2 _ (by decide))

theorem State.reach_storeVoltage (u F : Vec2) : State.Reach vsiRegs [] s (s.storeVoltage u F) :=
  ((((State.Reach.refl _ _ s).setF _ _).setF _ _).setF _ _).setF _ _

theorem State.reach_noBus : State.Reach vsiRegs [.dutyOutOfRange, .dutyTwice] s s.noBus :=
  ((State.Reach.refl _ _ s).andThen (State.reach_emitDuty _)).clear _

theorem State.reach_issue (d : Legs I32) (c : Clamped) (lim : Bool) (F : Vec2) :
    State.Reach vsiRegs [.dutyOutOfRange, .dutyTwice] s (s.issue d c lim F) :=
  ((((State.Reach.refl _ _ s).andThen (State.reach_bootstrap _) (hF := nofun)).andThen (State.reach_limiter _)
    (hF := nofun)).andThen (State.reach_emitDuty _)).andThen (State.reach_storeVoltage _ _) (hF := nofun)

theorem State.reach_pmVoltage (u F : Vec2) : State.Reach vsiRegs Fault.ofVoltage s (s.pmVoltage u F) := by
  unfold State.pmVoltage
  split_ifs
  · exact (State.Reach.refl _ _ s).poison _
  · exact State.reach_noBus.mono
  · exact (State.Reach.refl _ _ s).bindOr _ _ _ (fun _ => by decide) (fun d _ => (State.reach_issue d _ _ _).mono)

/-! ### At most one duty -/

/-- Reaching `dutyTwice` means that a duty had been emitted before. -/
def State.Fresh (s t : State) : Prop :=
  t.tl.unmodelled = some .dutyTwice → s.tl.unmodelled = some .dutyTwice ∨ s.tl.emitted = true

theorem State.Fresh.after {W : Ranges} {F : List Fault} {s t u : State} (h1 : State.Reach W F s t)
    (hs : s.sound = true) (hF : Fault.dutyTwice ∉ F) (h2 : State.Fresh t u) : State.Fresh s u := by
  intro hu
  rcases h2 hu with h | h
  · exact .inl ((h1.stops hs _ h).resolve_right hF)
  · exact .inr (h1.quiet hF ▸ h)

theorem State.Fresh.before {W : Ranges} {F : List Fault} {s t u : State} (h1 : State.Fresh s t)
    (h2 : State.Reach W F t u) (ht : t.sound = true) (hF : Fault.dutyTwice ∉ F) : State.Fresh s u := by
  intro hu
  exact h1 ((h2.stops ht _ hu).resolve_right hF)

theorem State.fresh_emitDuty (d : Legs I32) (hs : s.sound = true) : State.Fresh s (s.emitDuty d) := by
  intro hu
  cases he : s.tl.emitted with
  | true => exact .inr rfl
  | false =>
    left
    cases hd : SinkCall.ok (s.word 41) (.duty d.a d.b d.c) with
    | false =>
      rw [State.emitDuty_range d hd, State.poison_tl] at hu
      cases hun : s.tl.unmodelled with
      | none => rw [hun] at hu; simp at hu
      | some f => rw [hun] at hu; exact hu
    | true =>
      rw [State.emitDuty_ok d hd he] at hu
      have h1 : State.Reach legRegs [] (s.callDuty d)
          ((((s.callDuty d).set (Reg.vsi_DC 0) d.a).set (Reg.vsi_DC 1) d.b).set (Reg.vsi_DC 2) d.c).classify :=
        ((((State.Reach.refl _ _ _).setAny (Reg.vsi_DC 0) _).setAny (Reg.vsi_DC 1) _).setAny (Reg.vsi_DC 2) _).andThen
          State.reach_classify
      exact (h1.stops hs _ hu).resolve_right (by simp)

theorem State.fresh_noBus (hs : s.sound = true) : State.Fresh s s.noBus :=
  (State.fresh_emitDuty _ hs).before (W := vsiRegs) (F := []) ((State.Reach.refl _ _ _).clear _)
    ((State.reach_emitDuty _).sound hs) (by simp)

theorem State.fresh_issue (d : Legs I32) (c : Clamped) (lim : Bool) (F : Vec2) (hs : s.sound = true) :
    State.Fresh s (s.issue d c lim F) := by
  have h1 : State.Reach vsiRegs [] s ((s.bootstrap (s.minimalPulse d)).limiter lim) :=
    (State.reach_bootstrap _).trans (State.reach_limiter _)
  have ht := h1.sound hs
  exact State.Fresh.after h1 hs (by simp)
    ((State.fresh_emitDuty _ ht).before (State.reach_storeVoltage c.u F) ((State.reach_emitDuty _).sound ht) (by simp))

theorem State.fresh_poison {why : Fault} (h : why ≠ .dutyTwice) : State.Fresh s (s.poison why) := by
  intro hu
  rw [State.poison_tl] at hu
  cases hun : s.tl.unmodelled with
  | none => rw [hun] at hu; simp at hu; exact absurd hu h
  | some f => rw [hun] at hu; exact .inl hu

/-- `pm_voltage` emits at most one duty. -/
theorem State.fresh_pmVoltage (u F : Vec2) (hs : s.sound = true) : State.Fresh s (s.pmVoltage u F) := by
  unfold State.pmVoltage
  split_ifs
  · exact State.fresh_poison (by decide)
  · exact State.fresh_noBus hs
  · unfold State.bindOr
    dsimp only
    split
    · exact State.fresh_issue _ _ _ _ hs
    · exact State.fresh_poison (by decide)

end Sys2Proof.Machine
end

