-- ==== Sys2Proof/Laws/ReachLookup.lean ====
section
/-!
SUPPORT. What the lookup FSM's step can do (spec/42_lu_fsm.md).
-/

namespace Sys2Proof.Machine

set_option Elab.async false

variable {s : State}

/-- The lookup step's registers: the Hall selection, the feedback flags of a Z mask, the estimator, the sensors, the fault
registers, and on leaving DETACHED the integrals and tracks. -/
abbrev luRegs : Ranges :=
  [(4, 4), (288, 300), (320, 332), (336, 338), (344, 356), (360, 389), (392, 398), (400, 403), (408, 416), (420, 428),
    (432, 435), (466, 467)]

theorem LuMode.code_legal {m : LuMode} (h : m ≠ .sensorSincos) : (Kind.enum 7).legal m.code = true := by
  cases m <;> first | decide | exact absurd rfl h

theorem State.reach_dropZone : State.Reach zoneRegs [] s s.dropZone :=
  (State.Reach.refl _ _ s).when _ _ (fun _ => State.reach_setZone _)

theorem State.reach_estimatorRun : State.Reach estimatorRegs [] s s.estimatorRun := by
  unfold State.estimatorRun
  split_ifs
  · exact ((State.Reach.refl _ _ s).andThen State.reach_ortegaStep).andThen State.reach_zoneStep
  · exact ((State.Reach.refl _ _ s).andThen State.reach_kalmanCorrect).andThen State.reach_zoneStep
  · exact State.reach_dropZone.mono

theorem State.reach_estimatorBackground : State.Reach estimatorRegs [] s s.estimatorBackground := by
  have h : State.Reach estimatorRegs [] s
      (if s.modeIs .detached then s.ortegaStep.zoneDetached else s.estimatorRun) := by
    split_ifs
    · exact ((State.Reach.refl _ _ s).andThen State.reach_ortegaStep).andThen State.reach_zoneDetached
    · exact State.reach_estimatorRun
  exact h.when _ _ (fun _ => State.reach_lockGuard)

/-! ### Mode changes -/

theorem State.reach_leaveDetached : State.Reach luRegs [] s s.leaveDetached :=
  ((State.Reach.refl _ _ s).andThen (State.reach_emitZ 0 (by decide))).clear _

theorem State.reach_enterActions (m : LuMode) : State.Reach luRegs [] s (s.enterActions m) := by
  unfold State.enterActions
  split_ifs
  · exact ((State.Reach.refl _ _ s).andThen (State.reach_emitZ 7 (by decide))).setConst _ _
  · exact ((State.Reach.refl _ _ s).copyVec _ _).copy _ _
  · exact (((State.Reach.refl _ _ s).copyVec _ _).copy _ _).setAny _ _
  · exact .refl _ _ s

theorem State.reach_changeMode (m : LuMode) (hm : m ≠ .sensorSincos) : State.Reach luRegs [] s (s.changeMode m) :=
  ((((State.Reach.refl _ _ s).setConst _ _).when _ _ (fun _ => State.reach_leaveDetached)).trans
    (State.reach_enterActions m)).set Reg.lu_mode _ (fun _ _ => LuMode.code_legal hm)

/-- No edge leads to SENSOR_SINCOS (42 R245). -/
theorem State.edge_target {m : LuMode} (h : s.edge = some m) :
    m = .estimate ∨ m = .sensorHall ∨ m = .sensorAbi ∨ m = .onHfi ∨ m = .forced ∨ m = .detached := by
  unfold State.edge State.edgeDetached State.edgeForced State.edgeEstimate State.edgeHfi State.edgeSensor at h
  split_ifs at h <;> simp only [Option.some.injEq] at h <;> subst h <;> decide

theorem State.edge_ne_sincos {m : LuMode} (h : s.edge = some m) : m ≠ .sensorSincos := by
  rcases State.edge_target h with h | h | h | h | h | h <;> subst h <;> decide

theorem State.edge_ne_disabled {m : LuMode} (h : s.edge = some m) : m ≠ .disabled := by
  rcases State.edge_target h with h | h | h | h | h | h <;> subst h <;> decide

theorem State.reach_transition : State.Reach luRegs [] s s.transition := by
  unfold State.transition
  split
  · exact State.reach_changeMode _ (State.edge_ne_sincos ‹_›)
  · exact (State.Reach.refl _ _ s).when _ _ (fun _ => (State.reach_setZone _).mono)

/-! ### Blend, revolutions, location, load -/

theorem State.reach_blend (c : Candidate) : State.Reach luRegs [] s (s.blend c) := by
  unfold State.blend
  dsimp only
  split_ifs
  · exact ((State.Reach.refl _ _ s).copyVec _ _).copy _ _
  · exact ((State.Reach.refl _ _ s).setVec _ _).copy _ _

theorem State.reach_revolutions : State.Reach luRegs [] s s.revolutions :=
  ((State.Reach.refl _ _ s).setAny _ _).trans
    ((State.Reach.refl _ _ _).when _ _ (fun u => ((State.Reach.refl _ _ u).setAny _ _).copy _ _))

/-- The location sources are all the codes a sound state holds. -/
theorem State.location_cases (h : s.sound = true) :
    s.locationIs .flux = true ∨ s.locationIs .abi = true ∨ s.locationIs .sincos = true := by
  have h1 := State.legal_word s h (n := 5) (k := .enum 3) (by decide +kernel)
  simp only [Kind.legal, Nat.blt_eq] at h1
  unfold State.locationIs LocationSource.ofWord
  have h2 : Reg.config_LU_LOCATION.num = 5 := rfl
  rw [h2]
  generalize (s.word 5).toNat = n at h1
  match n, h1 with
  | 0, _ => exact .inl rfl
  | 1, _ => exact .inr (.inl rfl)
  | 2, _ => exact .inr (.inr rfl)

theorem State.reach_location : State.Reach luRegs [] s s.location := by
  unfold State.location
  split_ifs with h1 h2 h3
  · exact (State.Reach.refl _ _ s).setF _ _
  · exact (State.Reach.refl _ _ s).copy _ _
  · exact (State.Reach.refl _ _ s).copy _ _
  · exact State.Reach.poisonNever _ (fun ht => by rcases State.location_cases ht with h | h | h <;> simp_all)

theorem State.reach_loadTorque : State.Reach luRegs [] s s.loadTorque := by
  unfold State.loadTorque
  split_ifs
  · exact (State.Reach.refl _ _ s).setF _ _
  · exact (State.Reach.refl _ _ s).setF _ _
  · exact .refl _ _ s

theorem State.reach_forcedUpdate : State.Reach luRegs [] s s.forcedUpdate :=
  ((State.Reach.refl _ _ s).setF _ _).setVec _ _

/-! ### The step -/

theorem State.reach_luUpdate : State.Reach luRegs [] s s.luUpdate :=
  ((((((State.Reach.refl _ _ s).copyVec _ _).copy _ _).andThen State.reach_estimatorBackground).andThen
    State.reach_sensorTrackers).when _ _ (fun u =>
      ((State.Reach.refl _ _ u).andThen State.reach_hfiDemod).andThen State.reach_hfiDemand)).when _ _
        (fun _ => State.reach_forcedUpdate)

theorem LuMode.code_injective {m n : LuMode} (h : m.code = n.code) : m = n := by
  cases m <;> cases n <;> first | rfl | exact absurd h (by decide)

/-- The mode register of a sound state holds one mode, which is not SENSOR_SINCOS. -/
theorem State.mode_exists (h : s.sound = true) : ∃ m : LuMode, m ≠ .sensorSincos ∧ s.word 320 = m.code := by
  have h1 := State.legal_word s h (n := 320) (k := .enum 7) (by decide +kernel)
  simp only [Kind.legal, Nat.blt_eq] at h1
  have h2 : ∀ k : Nat, (s.word 320).toNat = k → s.word 320 = BitVec.ofNat 32 k := fun k hk => by
    rw [← hk, BitVec.ofNat_toNat, BitVec.setWidth_eq]
  generalize hn : (s.word 320).toNat = n at h1
  match n, h1 with
  | 0, _ => exact ⟨.disabled, by decide, h2 0 hn⟩
  | 1, _ => exact ⟨.forced, by decide, h2 1 hn⟩
  | 2, _ => exact ⟨.estimate, by decide, h2 2 hn⟩
  | 3, _ => exact ⟨.onHfi, by decide, h2 3 hn⟩
  | 4, _ => exact ⟨.detached, by decide, h2 4 hn⟩
  | 5, _ => exact ⟨.sensorHall, by decide, h2 5 hn⟩
  | 6, _ => exact ⟨.sensorAbi, by decide, h2 6 hn⟩

/-- Testing the mode of a state whose mode is known. -/
theorem State.modeIs_eq {m : LuMode} (h : s.word 320 = m.code) (n : LuMode) : s.modeIs n = decide (m = n) := by
  unfold State.modeIs
  rw [h]
  cases m <;> cases n <;> decide

/-- A mode of a sound state outside DISABLED has a candidate. -/
theorem State.candidate_none (ht : s.sound = true) (hd : s.modeIs .disabled = false) (hc : s.candidate = none) :
    False := by
  obtain ⟨m, hm, hw⟩ := State.mode_exists ht
  unfold State.candidate at hc
  simp only [State.modeIs_eq hw] at hc hd
  cases m <;> first | exact absurd hd (by decide) | exact absurd hc (by decide) | exact absurd rfl hm

theorem State.reach_luFollow (hd : s.modeIs .disabled = false) : State.Reach luRegs [] s s.luFollow :=
  State.Reach.bindOrNever _ _ _ (fun hn ht => State.candidate_none ht hd hn) (fun c _ =>
    (((State.reach_blend c).trans State.reach_revolutions).trans State.reach_location).trans State.reach_loadTorque)

/-- `change_mode` ends in the mode it is given. -/
theorem State.changeMode_mode (hs : s.sound = true) {m : LuMode} (hm : m ≠ .sensorSincos) :
    (s.changeMode m).word 320 = m.code := by
  have h : State.Reach luRegs [] s
      (((s.set Reg.lu_tm 0).when (s.modeIs .detached && m != .detached) (·.leaveDetached)).enterActions m) :=
    (((State.Reach.refl _ _ s).setConst _ _).when _ _ (fun _ => State.reach_leaveDetached)).trans
      (State.reach_enterActions m)
  exact State.word_set_same ((State.sound_iff _).mp (h.sound hs)).1 (LuMode.code_legal hm)

/-- A transition never disables the lookup FSM. -/
theorem State.transition_enabled (hs : s.sound = true) (hd : s.modeIs .disabled = false) :
    s.transition.modeIs .disabled = false := by
  unfold State.transition
  split
  · rename_i m hm
    rw [State.modeIs_eq (State.changeMode_mode hs (State.edge_ne_sincos hm))]
    simpa using State.edge_ne_disabled hm
  · have h : (s.when s.locksNow (·.setZone .locked)).word 320 = s.word 320 :=
      ((State.Reach.refl _ _ s).when _ _ (fun _ => State.reach_setZone _)).word 320 (by decide)
    unfold State.modeIs at hd ⊢
    rw [h]; exact hd

theorem State.reach_luFinish (hs : s.sound = true) (hd : s.modeIs .disabled = false) :
    State.Reach luRegs [] s s.luFinish :=
  (State.reach_transition.trans (State.reach_luFollow (State.transition_enabled hs hd))).when _ _
    (fun u => (State.Reach.refl _ _ u).count1 _)

/-- The part of the step before the transition keeps the mode. -/
theorem State.luUpdate_mode : s.luUpdate.word 320 = s.word 320 := by
  have h : State.Reach [(4, 4), (323, 332), (336, 338), (344, 356), (360, 389), (392, 398), (400, 403), (408, 416),
      (420, 428), (466, 467)] [] s s.luUpdate :=
    ((((((State.Reach.refl _ _ s).copyVec _ _).copy _ _).andThen State.reach_estimatorBackground).andThen
      State.reach_sensorTrackers).when _ _ (fun u =>
        ((State.Reach.refl _ _ u).andThen State.reach_hfiDemod).andThen State.reach_hfiDemand)).when _ _
          (fun u => ((State.Reach.refl _ _ u).setF _ _).setVec _ _)
  exact h.word 320 (by decide)

theorem State.sincos_never (hs : s.sound = true) : s.modeIs .sensorSincos = false := by
  obtain ⟨m, hm, hw⟩ := State.mode_exists hs
  rw [State.modeIs_eq hw]
  simpa using hm

/-- The lookup step of a sound state reaches no stop. -/
theorem State.reach_luStep (hs : s.sound = true) (hd : s.modeIs .disabled = false) :
    State.Reach luRegs [] s s.luStep := by
  unfold State.luStep
  rw [State.sincos_never hs]
  refine State.reach_luUpdate.trans (State.reach_luFinish (State.reach_luUpdate.sound hs) ?_)
  unfold State.modeIs at hd ⊢
  rw [State.luUpdate_mode]; exact hd

end Sys2Proof.Machine
end

