-- ==== Sys2Proof/Laws/ReachProcedures.lean ====
section
/-!
SUPPORT. What the micro-programs of the command FSM can do (spec/47_command_fsm.md).
-/

namespace Sys2Proof.Machine

set_option Elab.async false

variable {s : State}

/-- What the procedures write, LU_INITIATE apart: the probed plant constants, the calibrations of the current sensors, the
VSI registers, and what HALT and the FSM itself write. -/
abbrev procRegs : Ranges :=
  [(32, 35), (48, 48), (50, 53), (288, 312), (320, 320), (389, 389), (392, 392), (432, 438), (444, 445), (448, 448),
    (464, 486)]

/-- A `control()` that stays within what procedures may do, if its continuation does. -/
def Control.Ok (c : Control) : Prop :=
  ∀ s k, (∀ u, State.Reach procRegs Fault.ofVoltage u (k u)) → State.Reach procRegs Fault.ofVoltage s (c s k)

theorem Control.Ok.nothing : Control.Ok controlNothing := fun s _ hk => hk s

theorem State.reach_settle {c : Control} (hc : Control.Ok c) (A : I32) (hA : Kind.intLegal A = true) :
    State.Reach procRegs Fault.ofVoltage s (s.settle c A) :=
  hc s _ (fun t => (State.Reach.refl _ _ t).countThen _ (fun u =>
    (State.reach_nextPhase A _ hA (fun h => State.legal_word u h (n := 193) (k := .intNonNeg) (by decide +kernel))).mono))

theorem State.reach_accumulate {c : Control} (hc : Control.Ok c) (sample finish : State → State)
    (hs : ∀ u, State.Reach procRegs Fault.ofVoltage u (sample u))
    (hf : ∀ u, State.Reach procRegs Fault.ofVoltage u (finish u)) :
    State.Reach procRegs Fault.ofVoltage s (s.accumulate c sample finish) :=
  ((State.Reach.refl _ _ s).when _ _ hs).trans (hc _ _ (fun t => (State.Reach.refl _ _ t).countThen _ hf))

theorem State.reach_clearAcc (idx : List Nat)
    (h : (idx.map Reg.fsm_acc).all (fun r => procRegs.writable r && r.kind.legal 0) = true) :
    State.Reach procRegs [] s (s.clearAcc idx) := (State.Reach.refl _ _ s).clear _ h

theorem State.reach_done : State.Reach procRegs Fault.ofVoltage s s.done := (State.reach_enterState _).mono

theorem State.reach_fault (e : Errno) : State.Reach procRegs Fault.ofVoltage s (s.raise e false) :=
  (State.reach_raise _ _).mono

/-! ### The probe regulator -/

theorem State.reach_probeDrive (t : Vec2) : State.Reach procRegs Fault.ofVoltage s (s.probeDrive t) :=
  (((State.Reach.refl _ _ s).setF _ _).setF _ _).andThen (State.reach_pmVoltage _ _)

theorem State.reach_probeReg (t : Vec2) (k : State → State)
    (hk : ∀ u, State.Reach procRegs Fault.ofVoltage u (k u)) :
    State.Reach procRegs Fault.ofVoltage s (s.probeReg t k) := by
  unfold State.probeReg
  split_ifs
  · exact (State.reach_probeDrive t).trans (State.reach_fault _)
  · exact (State.reach_probeDrive t).trans (hk _)

theorem State.reach_turnPhasor (a : F32) : State.Reach procRegs Fault.ofVoltage s (s.turnPhasor a) :=
  ((State.Reach.refl _ _ s).setF _ _).setF _ _

theorem Control.Ok.turning (f : State → Vec2) :
    Control.Ok (fun s k => s.probeReg (f s) (fun t => k (t.turnPhasor t.probeTurn))) :=
  fun _ _ hk => State.reach_probeReg _ _ (fun _ => (State.reach_turnPhasor _).trans (hk _))

theorem Control.Ok.adjust : Control.Ok adjustControl := Control.Ok.turning _
theorem Control.Ok.probeL : Control.Ok probeLControl := Control.Ok.turning _
theorem Control.Ok.probeR : Control.Ok probeRControl := fun _ _ hk => State.reach_probeReg _ _ hk

theorem State.tmSkip_legal (h : s.sound = true) : Kind.intLegal (s.i Reg.tm_skip) = true :=
  State.legal_word s h (n := 192) (k := .intNonNeg) (by decide +kernel)

/-- The first tick of a procedure that energizes the legs. -/
theorem State.reach_probeStart (idx : List Nat)
    (h : (idx.map Reg.fsm_acc).all (fun r => procRegs.writable r && r.kind.legal 0) = true) :
    State.Reach procRegs Fault.ofVoltage s (s.probeStart idx) :=
  (((State.Reach.refl _ _ s).andThen (State.reach_emitZ 0 (by decide)) (hF := nofun)).andThen
    (State.reach_clearAcc idx h) (hF := nofun)).nextPhase _ _ rfl State.tmSkip_legal

/-! ### Supplied procedures -/

/-- The registers a procedure may write are among `procRegs`. -/
theorem procedureRegs_writable (p : Procedure) : (procedureRegs p).all procRegs.writable = true := by
  cases p <;> decide +kernel

theorem State.reach_procedureWrite (p : Procedure) (k : Nat) (w : Word) :
    State.Reach procRegs Fault.ofVoltage s (s.procedureWrite p k w) := by
  unfold State.procedureWrite
  split
  · rename_i r hr
    have hw := List.all_eq_true.mp (procedureRegs_writable p) r (List.mem_of_getElem? hr)
    unfold State.when
    split
    · rename_i hl
      exact (State.Reach.refl _ _ s).set r w (fun _ _ => hl) hw
    · exact .refl _ _ s
  · exact .refl _ _ s

theorem State.reach_procedureRaise (code : Word) : State.Reach procRegs Fault.ofVoltage s (s.procedureRaise code) := by
  unfold State.procedureRaise
  split
  · exact State.reach_fault _
  · exact .refl _ _ s

theorem low3_lt (m : Word) : (m &&& 7).toNat < 8 := by
  rw [BitVec.toNat_and]
  exact Nat.lt_of_le_of_lt Nat.and_le_right (by decide)

theorem State.reach_procedureDrive (p : Procedure) (f : State → State)
    (hf : ∀ u, State.Reach procRegs Fault.ofVoltage u (f u)) :
    State.Reach procRegs Fault.ofVoltage s (s.procedureDrive p f) :=
  (State.Reach.refl _ _ s).when _ f hf

theorem State.reach_procedureAct (p : Procedure) (a : ProcedureAct) :
    State.Reach procRegs Fault.ofVoltage s (s.procedureAct p a) := by
  cases a with
  | emitZ m => exact (State.Reach.refl _ _ s).when _ _ (fun _ => (State.reach_emitZ _ (low3_lt m)).mono)
  | emitDuty d => exact State.reach_procedureDrive p _ (fun u => (State.reach_emitDuty (u.drawnDuty d)).mono)
  | voltage u => exact State.reach_procedureDrive p _ (fun v => (State.reach_pmVoltage u (v.vec Reg.lu_F)).mono)
  | write k w => exact State.reach_procedureWrite p k w
  | raise code => exact State.reach_procedureRaise code
  | toHalt => exact State.reach_done
  | toIdle => exact (State.reach_enterState _).mono

theorem State.reach_procedureActs (p : Procedure) (n : Nat) :
    State.Reach procRegs Fault.ofVoltage s (s.procedureActs p n) := by
  induction n generalizing s with
  | zero => exact .refl _ _ s
  | succ n ih => exact (State.reach_procedureAct p _).trans ih

/-- A configuration function stays within what procedures may do, if its reference form does. -/
theorem State.reach_runChoice (c : Choice) (p : Procedure) {reference : State → State}
    (h : State.Reach procRegs Fault.ofVoltage s (reference s)) :
    State.Reach procRegs Fault.ofVoltage s (s.runChoice c p reference) := by
  cases c with
  | reference => exact h
  | supplied => exact State.reach_procedureActs p _

/-! ### ZERO_DRIFT -/

theorem State.reach_addAcc (i : Nat) (v : F32) (h : procRegs.writable (Reg.fsm_acc i) = true) :
    State.Reach procRegs Fault.ofVoltage s (s.addAcc i v) := (State.Reach.refl _ _ s).setF _ _ rfl h

theorem State.reach_zdSample : State.Reach procRegs Fault.ofVoltage s s.zdSample :=
  ((State.reach_addAcc 0 _ (by decide +kernel)).trans (State.reach_addAcc 1 _ (by decide +kernel))).when _ _
    (fun _ => State.reach_addAcc 2 _ (by decide +kernel))

theorem State.reach_storeOffsets : State.Reach procRegs Fault.ofVoltage s s.storeOffsets :=
  (((State.Reach.refl _ _ s).setF _ _).setF _ _).when _ _ (fun u => (State.Reach.refl _ _ u).setF _ _)

theorem State.reach_zdFinish : State.Reach procRegs Fault.ofVoltage s s.zdFinish := by
  unfold State.zdFinish
  split_ifs
  · exact State.reach_done
  · exact State.reach_fault _
  · exact State.reach_storeOffsets.trans State.reach_done

theorem State.reach_runZeroDrift : State.Reach procRegs Fault.ofVoltage s s.runZeroDrift := by
  unfold State.runZeroDrift
  split_ifs
  · exact ((((State.Reach.refl _ _ s).andThen (State.reach_emitZ 7 (by decide)) (hF := nofun)).andThen
      (State.reach_clearAcc _ (by decide +kernel)) (hF := nofun)).nextPhase _ _ rfl State.tmSkip_legal).trans
        (State.reach_settle .nothing 2 rfl)
  · exact State.reach_settle .nothing 2 rfl
  · exact State.reach_accumulate .nothing _ _ (fun _ => State.reach_zdSample) (fun _ => State.reach_zdFinish)
  · exact .refl _ _ s

/-! ### POWER_STAGE_TEST -/

theorem State.reach_pstClassify : State.Reach procRegs Fault.ofVoltage s s.pstClassify := by
  unfold State.pstClassify
  split_ifs
  · exact State.reach_done
  · exact State.reach_fault _
  · exact State.reach_fault _

theorem intLegal_max {a b : I32} (ha : Kind.intLegal a = true) (hb : Kind.intLegal b = true) :
    Kind.intLegal (I32.max a b) = true := by
  unfold I32.max; split <;> assumption

theorem State.reach_pstDrive (k : Nat) (hk : BitVec.toNat (7 - (1 <<< (k % 3)) : Word) < 8) :
    State.Reach procRegs Fault.ofVoltage s (s.pstDrive k) :=
  ((((State.Reach.refl _ _ s).andThen (State.reach_emitZ _ hk) (hF := nofun)).andThen
    (State.reach_emitDuty _)).setConst _ _).set Reg.tm_end _ (fun h _ => intLegal_max (State.tmSkip_legal h) rfl)

theorem State.reach_pstEnd (k : Nat) (hk : Kind.intLegal (BitVec.ofNat 32 (k + 2)) = true) :
    State.Reach procRegs Fault.ofVoltage s (s.pstEnd k) :=
  ((((State.Reach.refl _ _ s).setAny Reg.fsm_pst _).set Reg.fsm_phase _ (fun _ _ => hk)).setConst _ _).when _ _
    (fun _ => State.reach_pstClassify)

theorem State.reach_pstPulse (k : Nat) (h1 : BitVec.toNat (7 - (1 <<< (k % 3)) : Word) < 8)
    (h2 : Kind.intLegal (BitVec.ofNat 32 (k + 2)) = true) :
    State.Reach procRegs Fault.ofVoltage s (s.pstPulse k) := by
  unfold State.pstPulse
  split_ifs
  · exact State.reach_pstDrive k h1
  · exact (State.Reach.refl _ _ s).countThen _ (fun _ => State.reach_pstEnd k h2)

theorem State.reach_pstStart : State.Reach procRegs Fault.ofVoltage s s.pstStart := by
  unfold State.pstStart
  split_ifs
  · exact ((((State.Reach.refl _ _ s).setAny _ _).setConst _ _).setConst _ _).trans
      (State.reach_pstPulse 0 (by decide) (by decide))
  · exact State.reach_fault _

theorem State.reach_pstReference : State.Reach procRegs Fault.ofVoltage s s.pstReference := by
  unfold State.pstReference
  split_ifs with h0 h1
  · exact State.reach_pstStart
  · have h2 : ∀ k < 6, BitVec.toNat (7 - (1 <<< (k % 3)) : Word) < 8 ∧
        Kind.intLegal (BitVec.ofNat 32 (k + 2)) = true := by decide
    have h3 : s.phase ≤ 6 := h1
    obtain ⟨h4, h5⟩ := h2 (s.phase - 1) (by omega)
    exact State.reach_pstPulse _ h4 h5
  · exact State.reach_pstClassify
  · exact .refl _ _ s

theorem State.reach_runPowerStageTest : State.Reach procRegs Fault.ofVoltage s s.runPowerStageTest :=
  State.reach_runChoice _ _ State.reach_pstReference

/-! ### ADJUST_CURRENT -/

theorem State.reach_dftAcc (i : Nat) (x : F32)
    (h : (procRegs.writable (Reg.fsm_acc i) && procRegs.writable (Reg.fsm_acc (i + 1))) = true) :
    State.Reach procRegs Fault.ofVoltage s (s.dftAcc i x) := by
  rw [Bool.and_eq_true] at h
  exact ((State.Reach.refl _ _ s).setF _ _ rfl h.1).setF _ _ rfl h.2

theorem State.reach_adjustSample : State.Reach procRegs Fault.ofVoltage s s.adjustSample :=
  ((State.reach_dftAcc 4 _ (by decide +kernel)).trans (State.reach_dftAcc 6 _ (by decide +kernel))).trans
    (State.reach_dftAcc 8 _ (by decide +kernel))

theorem State.reach_storeGains (m : Legs F32) : State.Reach procRegs Fault.ofVoltage s (s.storeGains m) :=
  ((State.Reach.refl _ _ s).setF _ _).when _ _ (fun u => (State.Reach.refl _ _ u).setF _ _)

/-- With a non-zero sample count the DFT magnitudes are defined (40 R186). -/
theorem State.adjustMagnitudes_some (h : s.i Reg.tm_probe ≠ 0) : s.adjustMagnitudes ≠ none := by
  unfold State.adjustMagnitudes
  simp only [dftPhasor, if_neg h]
  exact Option.some_ne_none _

theorem State.reach_adjustFinish : State.Reach procRegs Fault.ofVoltage s s.adjustFinish := by
  unfold State.adjustFinish
  split_ifs with h
  · exact State.reach_done
  · refine (State.Reach.refl _ _ s).bindOr _ _ _ (fun hn => absurd hn (State.adjustMagnitudes_some h)) (fun m _ => ?_)
    split_ifs
    · exact State.reach_fault _
    · exact (State.reach_storeGains m).trans State.reach_done

theorem State.reach_phasorStart : State.Reach procRegs Fault.ofVoltage s s.phasorStart :=
  (State.Reach.refl _ _ s).unitFrame _

theorem State.reach_adjustReference : State.Reach procRegs Fault.ofVoltage s s.adjustReference := by
  unfold State.adjustReference
  split_ifs
  · exact ((State.reach_probeStart _ (by decide +kernel)).trans State.reach_phasorStart).trans
      (State.reach_settle .adjust 2 rfl)
  · exact State.reach_settle .adjust 2 rfl
  · exact State.reach_accumulate .adjust _ _ (fun _ => State.reach_adjustSample) (fun _ => State.reach_adjustFinish)
  · exact .refl _ _ s

theorem State.reach_runAdjustCurrent : State.Reach procRegs Fault.ofVoltage s s.runAdjustCurrent :=
  State.reach_runChoice _ _ State.reach_adjustReference

/-! ### PROBE_CONST_R, L, E, J -/

/-- A probe result that is finite and positive is legal in a plant constant. -/
theorem probeGood_legal {v : F32} (h : probeGood v = true) : v.isNaN = false ∧ Kind.f32Legal v.bits = true := by
  simp only [probeGood, Bool.and_eq_true] at h
  obtain ⟨h1, h2⟩ := h
  have h1' : v.mag < 2139095040 := by simpa [F32.isFinite] using h1
  refine ⟨by simp only [F32.isNaN, Bool.eq_false_iff, ne_eq, Nat.blt_eq]; omega, ?_⟩
  simp only [F32.gt, F32.lt, Bool.and_eq_true, decide_eq_true_eq] at h2
  have h3 : F32.sign v = false := by
    cases hs : F32.sign v with
    | false => rfl
    | true =>
      have h4 := h2.2
      have h5 : F32.zero.key = 0 := by decide
      have h6 : v.key = -(Int.ofNat v.mag) := by simp [F32.key, hs]
      rw [h5, h6] at h4
      have : (0 : Int) ≤ Int.ofNat v.mag := Int.natCast_nonneg _
      omega
  show (F32.isFinite v && (!F32.sign v || F32.isZero v)) = true
  rw [h1, h3]; rfl

theorem State.Reach.setProbe {t : State} (h : State.Reach procRegs Fault.ofVoltage s t) (r : Reg) (v : F32)
    (hv : probeGood v = true) (hk : r.kind = .f32NonNeg := by decide)
    (hw : procRegs.writable r = true := by decide +kernel) :
    State.Reach procRegs Fault.ofVoltage s (t.setF r v) :=
  h.setGood r v (probeGood_legal hv).1 (by rw [hk]; exact (probeGood_legal hv).2) hw

theorem State.reach_probeRFinish : State.Reach procRegs Fault.ofVoltage s s.probeRFinish := by
  unfold State.probeRFinish
  split_ifs with h1 h2
  · exact State.reach_done
  · exact ((State.Reach.refl _ _ s).setProbe _ _ h2).trans State.reach_done
  · exact State.reach_fault _

theorem State.reach_probeRReference : State.Reach procRegs Fault.ofVoltage s s.probeRReference := by
  unfold State.probeRReference
  split_ifs
  · exact (State.reach_probeStart _ (by decide +kernel)).trans (State.reach_settle .probeR 2 rfl)
  · exact State.reach_settle .probeR 2 rfl
  · exact State.reach_accumulate .probeR _ _ (fun _ => (State.reach_addAcc 4 _ (by decide +kernel)).trans
      (State.reach_addAcc 5 _ (by decide +kernel))) (fun _ => State.reach_probeRFinish)
  · exact .refl _ _ s

theorem State.reach_runProbeR : State.Reach procRegs Fault.ofVoltage s s.runProbeR :=
  State.reach_runChoice _ _ State.reach_probeRReference

theorem State.reach_probeLSample : State.Reach procRegs Fault.ofVoltage s s.probeLSample := by
  unfold State.probeLSample
  split_ifs
  · exact (State.reach_dftAcc 4 _ (by decide +kernel)).trans (State.reach_dftAcc 6 _ (by decide +kernel))
  · exact (State.reach_dftAcc 4 _ (by decide +kernel)).trans (State.reach_dftAcc 6 _ (by decide +kernel))

theorem State.reach_probeLMiddle : State.Reach procRegs Fault.ofVoltage s s.probeLMiddle := by
  unfold State.probeLMiddle
  split_ifs
  · exact State.reach_done
  · exact (((State.Reach.refl _ _ s).setF _ _).andThen (State.reach_clearAcc _ (by decide +kernel))
      (hF := nofun)).nextPhase _ _ rfl State.tmSkip_legal

theorem State.reach_probeLFinish : State.Reach procRegs Fault.ofVoltage s s.probeLFinish := by
  unfold State.probeLFinish
  split_ifs with h
  · rw [Bool.and_eq_true] at h
    have h1 : State.Reach procRegs Fault.ofVoltage s (s.copy Reg.const_Ld (Reg.fsm_acc 8)) :=
      (State.Reach.refl _ _ s).set Reg.const_Ld _ (fun _ _ => (probeGood_legal h.1).2)
    exact (h1.setProbe Reg.const_Lq _ h.2).trans State.reach_done
  · exact State.reach_fault _

theorem State.reach_probeLReference : State.Reach procRegs Fault.ofVoltage s s.probeLReference := by
  unfold State.probeLReference
  split_ifs
  · exact ((State.reach_probeStart _ (by decide +kernel)).trans State.reach_phasorStart).trans
      (State.reach_settle .probeL 2 rfl)
  · exact State.reach_settle .probeL 2 rfl
  · exact State.reach_accumulate .probeL _ _ (fun _ => State.reach_probeLSample) (fun _ => State.reach_probeLMiddle)
  · exact State.reach_settle .probeL 4 rfl
  · exact State.reach_accumulate .probeL _ _ (fun _ => State.reach_probeLSample) (fun _ => State.reach_probeLFinish)
  · exact .refl _ _ s

theorem State.reach_runProbeL : State.Reach procRegs Fault.ofVoltage s s.runProbeL :=
  State.reach_runChoice _ _ State.reach_probeLReference

theorem State.reach_toIdle : State.Reach procRegs Fault.ofVoltage s (s.enterState .idle) :=
  (State.reach_enterState _).mono

theorem State.reach_probeEFinish : State.Reach procRegs Fault.ofVoltage s s.probeEFinish := by
  unfold State.probeEFinish
  split_ifs with h1 h2
  · exact State.reach_toIdle
  · exact ((State.Reach.refl _ _ s).setProbe _ _ h2).trans State.reach_toIdle
  · exact State.reach_fault _

theorem State.reach_probeEReference : State.Reach procRegs Fault.ofVoltage s s.probeEReference := by
  unfold State.probeEReference
  split_ifs
  · exact (((State.Reach.refl _ _ s).andThen (State.reach_clearAcc _ (by decide +kernel)) (hF := nofun)).nextPhase _ _ rfl
      State.tmSkip_legal).trans (State.reach_settle .nothing 2 rfl)
  · exact State.reach_settle .nothing 2 rfl
  · exact State.reach_accumulate .nothing _ _ (fun _ => (State.reach_addAcc 4 _ (by decide +kernel)).trans
      (State.reach_addAcc 5 _ (by decide +kernel))) (fun _ => State.reach_probeEFinish)
  · exact .refl _ _ s

theorem State.reach_runProbeE : State.Reach procRegs Fault.ofVoltage s s.runProbeE :=
  State.reach_runChoice _ _ State.reach_probeEReference

theorem State.reach_runProbeJ : State.Reach fsmRegs [] s s.runProbeJ := by
  unfold State.runProbeJ
  split_ifs
  · exact State.reach_enterState _
  · exact .refl _ _ s

/-! ### HALT, LU_INITIATE, LU_SHUTDOWN -/

theorem State.reach_runHalt (hs : s.sound = true) : State.Reach haltRegs [.dutyTwice] s s.runHalt := by
  unfold State.runHalt
  split_ifs
  · exact State.reach_haltEntry hs
  · exact State.reach_haltReturn.mono
  · exact .refl _ _ s

theorem State.reach_runShutdown (hs : s.sound = true) : State.Reach haltRegs [.dutyTwice] s s.runShutdown := by
  unfold State.runShutdown
  split_ifs
  · exact ((State.reach_enterState _).mono).trans (State.reach_haltEntry ((State.reach_enterState _).sound hs))
  · exact .refl _ _ s

/-- What LU_INITIATE writes: the three resets of 47 R450, the mode, the Z mask with the flags, and the FSM's registers.
`lu_total_revol`, the mileage and the power filters are not among them (47 R450, 70 R554). -/
abbrev initiateRegs : Ranges :=
  [(288, 300), (320, 326), (328, 332), (336, 338), (344, 356), (360, 389), (392, 398), (400, 403), (409, 416),
    (422, 428), (432, 438), (444, 445), (448, 448), (464, 465), (468, 469)]

theorem State.reach_estimatorReset : State.Reach initiateRegs [] s s.estimatorReset :=
  ((((((((State.Reach.refl _ _ s).unitFrame _).unitFrame _).unitFrame _).unitFrame _).unitFrame _).unitFrame
    _).unitFrame _).clear _ |>.clear _

theorem State.reach_sensorsReset : State.Reach initiateRegs [] s s.sensorsReset :=
  ((((State.Reach.refl _ _ s).unitFrame _).unitFrame _).unitFrame _).clear _

theorem State.reach_runInitiate : State.Reach initiateRegs [] s s.runInitiate := by
  unfold State.runInitiate
  split_ifs
  · exact ((((((State.reach_estimatorReset.trans State.reach_sensorsReset).andThen State.reach_loopsReset).setConst
      _ _).setConst _ _).setConst _ _).andThen (State.reach_emitZ 7 (by decide))).andThen (State.reach_enterState _)
  · exact .refl _ _ s

/-! ### The step -/

/-- What an FSM step may write: the procedures' registers and LU_INITIATE's. -/
abbrev fsmStepRegs : Ranges :=
  [(32, 35), (48, 48), (50, 53), (288, 312), (320, 326), (328, 332), (336, 338), (344, 356), (360, 389), (392, 398),
    (400, 403), (409, 416), (422, 428), (432, 438), (444, 445), (448, 448), (464, 486)]

/-- The command FSM's states are all the codes a sound state holds. -/
theorem State.fsm_exists {n : Nat} (hn : Reg.kindOf n = some (.enum 11)) (h : s.sound = true) :
    ∃ q : FsmState, s.word n = q.code := by
  have h1 := State.legal_word s h hn
  simp only [Kind.legal, Nat.blt_eq] at h1
  have h2 : ∀ k : Nat, (s.word n).toNat = k → s.word n = BitVec.ofNat 32 k := fun k hk => by
    rw [← hk, BitVec.ofNat_toNat, BitVec.setWidth_eq]
  generalize hm : (s.word n).toNat = m at h1
  match m, h1 with
  | 0, _ => exact ⟨.idle, h2 0 hm⟩
  | 1, _ => exact ⟨.zeroDrift, h2 1 hm⟩
  | 2, _ => exact ⟨.powerStageTest, h2 2 hm⟩
  | 3, _ => exact ⟨.adjustCurrent, h2 3 hm⟩
  | 4, _ => exact ⟨.probeConstR, h2 4 hm⟩
  | 5, _ => exact ⟨.probeConstL, h2 5 hm⟩
  | 6, _ => exact ⟨.luInitiate, h2 6 hm⟩
  | 7, _ => exact ⟨.luShutdown, h2 7 hm⟩
  | 8, _ => exact ⟨.probeConstE, h2 8 hm⟩
  | 9, _ => exact ⟨.probeConstJ, h2 9 hm⟩
  | 10, _ => exact ⟨.halt, h2 10 hm⟩

theorem FsmState.ofWord_code (q : FsmState) : FsmState.ofWord q.code = some q := by cases q <;> rfl

theorem State.reach_runState (hs : s.sound = true) : State.Reach fsmStepRegs Fault.ofVoltage s s.runState := by
  obtain ⟨q, hq⟩ := State.fsm_exists (n := 464) (by decide +kernel) hs
  unfold State.runState
  rw [show s.word Reg.fsm_state.num = q.code from hq, FsmState.ofWord_code]
  cases q
  · exact .refl _ _ s
  · exact State.reach_runZeroDrift.mono
  · exact State.reach_runPowerStageTest.mono
  · exact State.reach_runAdjustCurrent.mono
  · exact State.reach_runProbeR.mono
  · exact State.reach_runProbeL.mono
  · exact State.reach_runInitiate.mono
  · exact (State.reach_runShutdown hs).mono
  · exact State.reach_runProbeE.mono
  · exact State.reach_runProbeJ.mono
  · exact (State.reach_runHalt hs).mono

/-- Consuming a request writes the FSM's registers, the slot and the fault code. -/
abbrev consumeRegs : Ranges := [(464, 469)]

theorem State.reach_takeRequest (q : FsmState) : State.Reach consumeRegs [] s (s.takeRequest q) := by
  unfold State.takeRequest
  split_ifs
  · exact (State.Reach.refl _ _ s).when _ _ (fun _ => (State.reach_enterState _).mono)
  · exact (State.Reach.refl _ _ s).when _ _ (fun u =>
      ((State.Reach.refl _ _ u).setConst _ _).andThen (State.reach_enterState _))

theorem State.reach_consumeRequest : State.Reach consumeRegs [] s s.consumeRequest := by
  unfold State.consumeRequest
  split_ifs
  · exact .refl _ _ s
  · split
    · exact ((State.Reach.refl _ _ s).setConst _ _).trans (State.reach_takeRequest _)
    · rename_i hn
      refine State.Reach.poisonNever _ (fun h => ?_)
      obtain ⟨q, hq⟩ := State.fsm_exists (n := 466) (by decide +kernel) h
      rw [show s.word Reg.fsm_req.num = q.code from hq, FsmState.ofWord_code] at hn
      exact absurd hn (by simp)

theorem State.reach_fsmStep (hs : s.sound = true) : State.Reach fsmStepRegs Fault.ofVoltage s s.fsmStep :=
  State.reach_consumeRequest.mono.trans (State.reach_runState (State.reach_consumeRequest.sound hs))

end Sys2Proof.Machine
end

