-- ==== Sys2Proof/Laws/ReachTick.lean ====
section
/-!
SUPPORT. What a TICK can do, step by step (spec/41_tick_feedback.md R200, R207, R208).
-/

namespace Sys2Proof.Machine

set_option Elab.async false

variable {s : State}

theorem State.reach_outerLoops : State.Reach loopRegsAll [] s s.outerLoops :=
  ((State.Reach.refl _ _ s).when _ _ (fun _ => State.reach_locationLoop)).when _ _ (fun _ => State.reach_speedLoop)

/-- The drive's registers. -/
abbrev driveRegs : Ranges := [(288, 312), (392, 392), (432, 442), (444, 445), (448, 448)]

theorem State.reach_drive : State.Reach driveRegs Fault.ofVoltage s s.drive := by
  unfold State.drive
  split_ifs
  · exact .refl _ _ s
  · have h1 : State.Reach driveRegs Fault.ofVoltage s s.outerLoops.currentLoop :=
      (State.reach_outerLoops.trans State.reach_currentLoop).mono
    unfold State.driveVoltage State.pmVoltageDQ
    exact h1.trans (State.reach_pmVoltage _ _).mono

theorem State.reach_dutyDraw (hs : s.sound = true) : State.Reach legRegs [.dutyTwice] s s.dutyDraw := by
  have h0 : State.Reach legRegs [.dutyTwice] s { s with draws := s.draws + 1 } :=
    ⟨fun _ _ => rfl, rfl, fun h => h, rfl, rfl, rfl, rfl, rfl, rfl, rfl, fun _ _ h => .inl h, fun _ h => h,
      ⟨[], by simp⟩, fun _ => rfl, fun h => h⟩
  unfold State.dutyDraw
  dsimp only
  split
  · exact h0
  · exact h0.trans (State.reach_emitDuty_inRange _ (State.drawnDuty_ok hs _))

theorem State.reach_frameFault (hs : s.sound = true) :
    State.Reach [(288, 300), (466, 467)] [.dutyTwice] s s.frameFault :=
  ((State.reach_raise _ _).mono).andThen (State.reach_dutyDraw ((State.reach_raise _ _).sound hs))

/-- S7c to S7e. -/
abbrev checkedRegs : Ranges := [(288, 312), (392, 392), (432, 442), (444, 445), (448, 448), (452, 455), (466, 467)]

theorem State.reach_checkedDrive (hs : s.sound = true) : State.Reach checkedRegs Fault.ofVoltage s s.checkedDrive := by
  unfold State.checkedDrive
  split_ifs
  · exact (State.reach_drive.mono).andThen State.reach_mileage (hF := nofun)
  · exact (State.reach_frameFault hs).mono

/-- S7. -/
abbrev lookupRegs : Ranges :=
  [(4, 4), (269, 270), (288, 312), (320, 332), (336, 338), (344, 356), (360, 389), (392, 398), (400, 403), (408, 416),
    (420, 428), (432, 442), (444, 445), (448, 448), (452, 455), (466, 467)]

theorem State.reach_lookupPart (hs : s.sound = true) : State.Reach lookupRegs Fault.ofVoltage s s.lookupPart := by
  unfold State.lookupPart
  split_ifs with hd
  · exact .refl _ _ s
  · have h1 : State.Reach lookupRegs Fault.ofVoltage s s.luStep.projectCurrent :=
      ((State.reach_luStep hs (by simpa using hd)).mono).andThen State.reach_projectCurrent (hF := nofun)
    exact h1.trans (State.reach_checkedDrive (h1.sound hs)).mono

theorem State.reach_postponedPart : State.Reach fluxRegs [] s s.postponedPart :=
  (State.Reach.refl _ _ s).when _ _ (fun _ => State.reach_kalmanPostponed)

theorem State.reach_deferredPart : State.Reach faultRegs [] s s.deferredPart :=
  (State.Reach.refl _ _ s).when _ _ (fun _ => State.reach_applyDeferred)

/-- Steps S1 to S9 of a TICK from a sound state. -/
theorem State.reach_sequence (hs : s.sound = true) (fb : Feedback) :
    State.Reach tickRegs Fault.ofVoltage s (s.sequence fb) := by
  have h1 : State.Reach tickRegs Fault.ofVoltage s (s.ingest fb) := (State.reach_ingest fb).mono
  have h2 := h1.trans (State.reach_fsmStep (h1.sound hs)).mono
  have h3 := h2.trans (State.reach_lookupPart (h2.sound hs)).mono
  exact (h3.trans State.reach_postponedPart.mono).trans State.reach_deferredPart.mono

end Sys2Proof.Machine
end

