-- ==== Sys2Proof/Laws/Write.lean ====
section
/-!
SUPPORT. What each writer leaves in every register of a canonical record: the lemmas that compute a register after a chain
of writes, without unfolding a record update.
-/

namespace Sys2Proof.Machine

set_option Elab.async false

variable {s : State}

/-! ### The record stays canonical -/

@[simp] theorem State.wf_set (h : s.regs.wf = true) (r : Reg) (w : Word) : (s.set r w).regs.wf = true := by
  unfold State.set
  cases r.kind.legal w with
  | true => exact State.wf_store s h _ _
  | false => exact h

@[simp] theorem State.wf_setF (h : s.regs.wf = true) (r : Reg) (v : F32) : (s.setF r v).regs.wf = true := by
  unfold State.setF
  cases v.isNaN with
  | true => exact State.wf_set h _ _
  | false => exact State.wf_set h _ _

@[simp] theorem State.wf_setFlag (h : s.regs.wf = true) (r : Reg) (b : Bool) : (s.setFlag r b).regs.wf = true :=
  State.wf_set h _ _

@[simp] theorem State.wf_copy (h : s.regs.wf = true) (r other : Reg) : (s.copy r other).regs.wf = true :=
  State.wf_set h _ _

@[simp] theorem State.wf_count1 (h : s.regs.wf = true) (r : Reg) : (s.count1 r).regs.wf = true := State.wf_set h _ _

@[simp] theorem State.wf_setVec (h : s.regs.wf = true) (r : Nat → Reg) (v : Vec2) : (s.setVec r v).regs.wf = true :=
  State.wf_setF (State.wf_setF h _ _) _ _

@[simp] theorem State.wf_copyVec (h : s.regs.wf = true) (r other : Nat → Reg) : (s.copyVec r other).regs.wf = true :=
  State.wf_copy (State.wf_copy h _ _) _ _

@[simp] theorem State.wf_unitFrame (h : s.regs.wf = true) (r : Nat → Reg) : (s.unitFrame r).regs.wf = true :=
  State.wf_set (State.wf_set h _ _) _ _

@[simp] theorem State.wf_clear (h : s.regs.wf = true) (l : List Reg) : (s.clear l).regs.wf = true := by
  induction l generalizing s with
  | nil => exact h
  | cons r rs ih => exact ih (State.wf_set h r 0)

/-! ### The word of every register -/

/-- The internal writer with a legal value. -/
theorem State.word_set (h : s.regs.wf = true) {r : Reg} {w : Word} (hl : r.kind.legal w = true) (n : Nat) :
    (s.set r w).word n = if n = r.num then w else if r.num = 464 ∧ n = 465 then 0 else s.word n := by
  rw [State.set_legal _ _ hl, State.word_store _ h]

/-- The internal writer leaves every other register, whatever the value. -/
theorem State.word_set_other {r : Reg} {w : Word} {n : Nat} (h1 : n ≠ r.num) (h2 : r.num = 464 → n ≠ 465) :
    (s.set r w).word n = s.word n := by
  unfold State.set
  cases r.kind.legal w with
  | true => exact State.word_store_other _ _ _ h1 h2
  | false => rfl

/-- A NaN that is written is read as a NaN. -/
theorem nanOf_isNaN (b : Word) : F32.isNaN ⟨nanOf b⟩ = true := by
  unfold nanOf
  cases hb : F32.isNaN ⟨b⟩ with
  | true => exact hb
  | false =>
    simp only [cond_false]
    decide +kernel

/-! One lemma a type, in the form that rewrites a chain of writes. -/

theorem State.word_set_f32 (h : s.regs.wf = true) (k n : Nat) (w : Word) :
    (s.set ⟨k, .f32⟩ w).word n = if n = k then w else if k = 464 ∧ n = 465 then 0 else s.word n :=
  State.word_set (r := ⟨k, .f32⟩) h rfl n

theorem State.word_set_i32 (h : s.regs.wf = true) (k n : Nat) (w : Word) :
    (s.set ⟨k, .i32⟩ w).word n = if n = k then w else if k = 464 ∧ n = 465 then 0 else s.word n :=
  State.word_set (r := ⟨k, .i32⟩) h rfl n

theorem State.word_set_int (h : s.regs.wf = true) (k n : Nat) {w : Word} (hl : Kind.intLegal w = true) :
    (s.set ⟨k, .intNonNeg⟩ w).word n = if n = k then w else if k = 464 ∧ n = 465 then 0 else s.word n :=
  State.word_set (r := ⟨k, .intNonNeg⟩) h hl n

theorem State.word_set_enum (h : s.regs.wf = true) (k n c : Nat) {w : Word} (hl : Nat.blt w.toNat c = true) :
    (s.set ⟨k, .enum c⟩ w).word n = if n = k then w else if k = 464 ∧ n = 465 then 0 else s.word n :=
  State.word_set (r := ⟨k, .enum c⟩) h hl n

theorem State.word_set_bool (h : s.regs.wf = true) (k n : Nat) {w : Word} (hl : Nat.blt w.toNat 2 = true) :
    (s.set ⟨k, .bool⟩ w).word n = if n = k then w else if k = 464 ∧ n = 465 then 0 else s.word n :=
  State.word_set (r := ⟨k, .bool⟩) h hl n

theorem State.word_setFlag (h : s.regs.wf = true) (k n : Nat) (b : Bool) :
    (s.setFlag ⟨k, .bool⟩ b).word n = if n = k then Flag.word b else if k = 464 ∧ n = 465 then 0 else s.word n :=
  State.word_set (r := ⟨k, .bool⟩) h (by cases b <;> rfl) n

theorem State.word_copy_f32 (h : s.regs.wf = true) (k n : Nat) (other : Reg) :
    (s.copy ⟨k, .f32⟩ other).word n =
      if n = k then s.word other.num else if k = 464 ∧ n = 465 then 0 else s.word n := State.word_set_f32 h k n _

theorem State.word_copy_i32 (h : s.regs.wf = true) (k n : Nat) (other : Reg) :
    (s.copy ⟨k, .i32⟩ other).word n =
      if n = k then s.word other.num else if k = 464 ∧ n = 465 then 0 else s.word n := State.word_set_i32 h k n _

theorem State.word_setF (h : s.regs.wf = true) (k n : Nat) {v : F32} (hv : v.isNaN = false) :
    (s.setF ⟨k, .f32⟩ v).word n = if n = k then v.bits else if k = 464 ∧ n = 465 then 0 else s.word n := by
  unfold State.setF
  rw [hv]
  exact State.word_set_f32 h k n _

theorem State.word_setF_other (k : Nat) (c : Kind) (v : F32) {n : Nat} (h1 : n ≠ k) (h2 : n ≠ 465) :
    (s.setF ⟨k, c⟩ v).word n = s.word n := by
  unfold State.setF
  cases v.isNaN with
  | true => exact State.word_set_other h1 (fun _ => h2)
  | false => exact State.word_set_other h1 (fun _ => h2)

/-- The register of a computed real holds it, up to the bits of a NaN. -/
theorem State.setF_isNaN (h : s.regs.wf = true) (k : Nat) {v : F32} (hv : v.isNaN = true) :
    F32.isNaN ⟨(s.setF ⟨k, .f32⟩ v).word k⟩ = true := by
  have h1 : (s.setF ⟨k, .f32⟩ v).word k = (s.set ⟨k, .f32⟩ (nanOf (Config.nanBits s.draws))).word k := by
    unfold State.setF
    rw [hv]
    rfl
  rw [h1, State.word_set_f32 h, if_pos rfl]
  exact nanOf_isNaN _

theorem State.word_clear (h : s.regs.wf = true) {l : List Reg}
    (hl : l.all (fun r => r.kind.legal 0 && !Nat.beq r.num 464) = true) (n : Nat) :
    (s.clear l).word n = if (l.map Reg.num).contains n then 0 else s.word n := by
  induction l generalizing s with
  | nil => rfl
  | cons r rs ih =>
    simp only [List.all_cons, Bool.and_eq_true, Bool.not_eq_true'] at hl
    obtain ⟨⟨h1, h2⟩, h3⟩ := hl
    have h4 : r.num ≠ 464 := by intro hc; rw [hc] at h2; exact absurd h2 (by decide)
    rw [State.clear, ih (State.wf_set h r 0) (by simpa using h3), State.word_set h h1]
    simp only [List.map_cons, List.contains_cons, Bool.or_eq_true, beq_iff_eq, h4, false_and, if_false]
    cases h5 : (rs.map Reg.num).contains n <;> simp

/-! ### Only the record -/

/-- A chain of changes of the record alone is one. -/
theorem State.onlyRegs_trans {s t u : State} (h1 : t = { s with regs := t.regs }) (h2 : u = { t with regs := u.regs }) :
    u = { s with regs := u.regs } := by
  rw [h1] at h2
  exact h2

theorem State.onlyRegs_set (s : State) {r : Reg} {w : Word} (hl : r.kind.legal w = true) :
    s.set r w = { s with regs := (s.set r w).regs } := by rw [State.set_legal _ _ hl]; rfl

theorem State.onlyRegs_setFlag (s : State) (k : Nat) (b : Bool) :
    s.setFlag ⟨k, .bool⟩ b = { s with regs := (s.setFlag ⟨k, .bool⟩ b).regs } :=
  State.onlyRegs_set s (r := ⟨k, .bool⟩) (by cases b <;> rfl)

theorem State.onlyRegs_classifyLeg (s : State) (i : Nat) :
    s.classifyLeg i = { s with regs := (s.classifyLeg i).regs } :=
  State.onlyRegs_trans (State.onlyRegs_trans (State.onlyRegs_setFlag _ _ _) (State.onlyRegs_setFlag _ _ _))
    (State.onlyRegs_setFlag _ _ _)

theorem State.onlyRegs_classify (s : State) : s.classify = { s with regs := s.classify.regs } :=
  State.onlyRegs_trans (State.onlyRegs_trans (State.onlyRegs_classifyLeg _ _) (State.onlyRegs_classifyLeg _ _))
    (State.onlyRegs_classifyLeg _ _)

/-! ### Register ranges -/

/-- Outside a list of ranges is outside each of them. -/
theorem Ranges.has_cons_false {a b n : Nat} {W : Ranges} :
    Ranges.has ((a, b) :: W) n = false ↔ (n < a ∨ b < n) ∧ Ranges.has W n = false := by
  simp only [Ranges.has, List.any_cons, Bool.or_eq_false_iff, Bool.and_eq_false_iff]
  have h1 : ∀ x y : Nat, Nat.ble x y = false ↔ y < x := fun x y => by
    rw [Bool.eq_false_iff, ne_eq, Nat.ble_eq, Nat.not_le]
  rw [h1, h1]

theorem Ranges.has_nil (n : Nat) : Ranges.has [] n = false := rfl

end Sys2Proof.Machine
end

