-- ==== Sys2Proof/Tests/Slice0.lean ====
section
/-!
SUPPORT. The model's own tests: the well-formedness checks with ill-formed operations, operation words written out from the
spec's encodings, at most two small tests an operation, with the expected results of the spec's own examples, and for every
statement with hypotheses a concrete state and operands that meet them.
-/

open Sys2Proof Sys2Proof.Machine

namespace Sys2Proof.Tests

set_option Elab.async false

/-! ### Helpers -/

/-- The reset state with registers written. -/
def stateWith (l : List (Nat × Word)) : State :=
  { State.reset with regs := l.foldl (fun r p => r.put p.1 p.2) RegFile.reset }

/-- A feedback record of zeros. -/
def quietFb : Feedback := ⟨⟨0⟩, ⟨0⟩, ⟨0⟩, ⟨0⟩, ⟨0⟩, ⟨0⟩, ⟨0⟩, 0, 0, ⟨0⟩, ⟨0⟩⟩

/-- A property of the next state; false when there is none. -/
def thenState (o : Host.Outcome State Fault Refusal) (p : State → Bool) : Bool :=
  match o with
  | .next t => p t
  | .fault _ => false
  | .refused _ => false

/-- There is a next state. -/
def completes (o : Host.Outcome State Fault Refusal) : Bool := thenState o (fun _ => true)

/-! ### Well-formedness -/

/-- 20 R101: number 19 is not assigned. -/
theorem test_wellformed_read_unassigned : (Instr.regRead 19).wellFormed = false := by decide +kernel
theorem test_wellformed_write_unassigned : (Instr.regWrite 511 0).wellFormed = false := by decide +kernel
/-- The last assigned number of 10 R50 is 486. -/
theorem test_wellformed_last_register :
    (Instr.regRead 486).wellFormed = true ∧ (Instr.regRead 487).wellFormed = false := by decide +kernel
/-- The value of a REG_WRITE is no matter of its form. -/
theorem test_wellformed_write_illegal_value : (Instr.regWrite 464 99).wellFormed = true := by decide +kernel

/-! ### Decoding of words written out from 30 R130-R133, R144, R145, in the byte order of 20 R102 -/

/-- REQ: class 0001, bits [27:8] zero, `req` 00000001. -/
theorem test_decode_request_bits :
    decodeWord (0b0001#4 ++ 0b00000000000000000000#20 ++ 0b00000001#8) [] = .ok .reqZeroDrift := by decide +kernel
/-- REG_READ: class 0010, bits [27:9] zero, `reg` 111010000 = 464. -/
theorem test_decode_read_bits :
    decodeWord (0b0010#4 ++ 0b0000000000000000000#19 ++ 0b111010000#9) [] = .ok (.regRead 464) := by decide +kernel
/-- REG_WRITE: class 0011, bits [27:9] zero, `reg` 010010110 = 150, one value word. -/
theorem test_decode_write_bits :
    decodeWord (0b0011#4 ++ 0b0000000000000000000#19 ++ 0b010010110#9) [0x40A00000] =
      .ok (.regWrite 150 0x40A00000) := by decide +kernel
/-- TICK: a zero word and 11 payload words in the order of 30 R133. -/
theorem test_decode_tick_fields :
    decodeWord 0 [1, 2, 3, 4, 5, 6, 7, 8, 9, 10, 11] =
      .ok (.tick ⟨⟨1⟩, ⟨2⟩, ⟨3⟩, ⟨4⟩, ⟨5⟩, ⟨6⟩, ⟨7⟩, 8, 9, ⟨10⟩, ⟨11⟩⟩) := by decide +kernel
/-- The other request words. -/
theorem test_decode_requests :
    ((List.range 11).map (fun q => decodeWord (0x10000000 + BitVec.ofNat 32 (q + 1)) [])) =
      [.ok .reqZeroDrift, .ok .reqPowerStageTest, .ok .reqAdjustCurrent, .ok .reqProbeConstR, .ok .reqProbeConstL,
        .ok .reqLuInitiate, .ok .reqLuShutdown, .ok .reqProbeConstE, .ok .reqProbeConstJ, .ok .reqHalt,
        .error .badRequest] := by decide +kernel
/-- Little-endian bytes: the word 0x1000000A, then what follows. -/
theorem test_decode_bytes :
    decode [0x0A, 0x00, 0x00, 0x10, 0x55] = .op .reqHalt [0x55] := by decide +kernel
/-- A payload cut short is no operation (48 R480). -/
theorem test_decode_short_payload :
    decode [0x96, 0x00, 0x00, 0x30, 0x00] = .rejected .shortPayload [] := by decide +kernel
/-- A stray bit in every class. -/
theorem test_decode_stray_bits :
    decodeWord 0x08000000 [0, 0, 0, 0, 0, 0, 0, 0, 0, 0, 0] = .error .strayBits ∧
    decodeWord 0x10000101 [] = .error .strayBits ∧ decodeWord 0x20000200 [] = .error .strayBits ∧
    decodeWord 0x30000200 [0] = .error .strayBits := by decide +kernel
/-- Table words and the placing of one for the next step. -/
theorem test_fetch_word :
    decodeTableWord 32 0x10000004 = some .reqProbeConstR ∧
    thenState (step (State.reset.withFetchWord 32 0x10000004)) (fun t => t.word 466 == 4) = true := by decide +kernel

/-! ### The operations -/

/-- 48 R481's example: `fb_uS` = 24 and nothing is emitted. -/
theorem test_tick_idle_example :
    thenState (exec (.tick { quietFb with voltageU := ⟨0x41C00000⟩ }) (stateWith [(72, 0x41A00000), (73, 0x42700000)]))
      (fun t => t.word 262 == 0 && t.f Reg.fb_uS == ⟨0x41C00000⟩ && decide (t.out.sinks = [])) = true := by decide +kernel
/-- 48 R489's example: the TICK after REQ ZERO_DRIFT gives `fsm_state` = ZERO_DRIFT and `vsi_Z` = 7. -/
theorem test_tick_zero_drift :
    thenState (exec (.tick quietFb) (stateWith [(466, 1)])) (fun t => t.word 464 == 1 && t.word 291 == 7) = true := by
  decide +kernel
/-- 48 R487's example: a later request replaces an earlier one. -/
theorem test_req_zero_drift_replaces :
    thenState (exec .reqZeroDrift (stateWith [(466, 4)])) (fun t => t.word 466 == 1) = true := by decide +kernel
/-- 48 R487's example: a pending HALT stays. -/
theorem test_req_zero_drift_after_halt :
    thenState (exec .reqZeroDrift (stateWith [(466, 10)])) (fun t => t.word 466 == 10) = true := by decide +kernel
theorem test_req_power_stage_test :
    thenState (exec .reqPowerStageTest State.reset) (fun t => t.word 466 == 2) = true := by decide +kernel
theorem test_req_adjust_current :
    thenState (exec .reqAdjustCurrent State.reset) (fun t => t.word 466 == 3) = true := by decide +kernel
theorem test_req_probe_const_r :
    thenState (exec .reqProbeConstR State.reset) (fun t => t.word 466 == 4) = true := by decide +kernel
theorem test_req_probe_const_l :
    thenState (exec .reqProbeConstL State.reset) (fun t => t.word 466 == 5) = true := by decide +kernel
theorem test_req_lu_initiate :
    thenState (exec .reqLuInitiate State.reset) (fun t => t.word 466 == 6) = true := by decide +kernel
theorem test_req_lu_shutdown :
    thenState (exec .reqLuShutdown State.reset) (fun t => t.word 466 == 7) = true := by decide +kernel
theorem test_req_probe_const_e :
    thenState (exec .reqProbeConstE State.reset) (fun t => t.word 466 == 8) = true := by decide +kernel
theorem test_req_probe_const_j :
    thenState (exec .reqProbeConstJ State.reset) (fun t => t.word 466 == 9) = true := by decide +kernel
/-- HALT replaces any pending request. -/
theorem test_req_halt :
    thenState (exec .reqHalt (stateWith [(466, 9)])) (fun t => t.word 466 == 10) = true := by decide +kernel
/-- 48 R482's example: after reset, `fsm_state` reads 0. -/
theorem test_reg_read_example :
    thenState (exec (.regRead 464) State.reset) (fun t => decide (t.out.responses = [0])) = true := by decide +kernel
/-- A read of a calibration scale after reset returns 1.0. -/
theorem test_reg_read_scale :
    thenState (exec (.regRead 49) State.reset) (fun t => decide (t.out.responses = [0x3F800000])) = true := by
  decide +kernel
/-- 48 R483's corner case: a write to `fsm_state` also zeroes `fsm_phase`, and nothing else. -/
theorem test_reg_write_state :
    thenState (exec (.regWrite 464 2) (stateWith [(465, 3), (466, 1), (468, 5)]))
      (fun t => t.word 464 == 2 && t.word 465 == 0 && t.word 466 == 1 && t.word 468 == 5) = true := by decide +kernel
/-- 48 R483's corner case: `lu_mode <- SENSOR_SINCOS` is refused. -/
theorem test_reg_write_sincos :
    thenState (exec (.regWrite 320 7) State.reset)
      (fun t => t.word 320 == 0 && decide (t.out.refused = [.illegalValue 320 7])) = true := by decide +kernel

/-! ### Witnesses of the statements' hypotheses -/

theorem witness_StepKeepsInvariant :
    (State.reset.withFetchWord 32 0x1000000A).inv = true ∧
      completes (step (State.reset.withFetchWord 32 0x1000000A)) = true := by decide +kernel
theorem witness_TickStopsOnlyInVoltageStage : State.reset.sound = true ∧ State.reset.guardOpen = false := by
  decide +kernel
theorem witness_OnlyTickStops : ∀ fb, Instr.regRead 511 ≠ .tick fb := by intro fb h; cases h
theorem witness_DecodeOfEncode :
    (Instr.tick quietFb).wellFormed = true ∧ (Instr.regWrite 486 0xFFFFFFFF).wellFormed = true ∧
      (Instr.regRead 0).wellFormed = true := by decide +kernel
theorem witness_DecodedIsItsEncoding :
    decode [0xE6, 0x01, 0x00, 0x30, 0x01, 0x02, 0x03, 0x04, 0x05] = .op (.regWrite 486 0x04030201) [0x05] := by
  decide +kernel
theorem witness_StepRunsDecoded :
    ({ State.reset with inbox := [⟨false, [0x0A, 0x00, 0x00, 0x10]⟩] } : State).inbox =
        ⟨false, [0x0A, 0x00, 0x00, 0x10]⟩ :: [] ∧
      decode [0x0A, 0x00, 0x00, 0x10] = .op .reqHalt [] := by decide +kernel
theorem witness_GuardRunsTheGroup :
    State.reset.guardOpen = false ∧ (∀ i ∈ [Instr.regWrite 320 9, .tick quietFb, .regRead 0], i.wellFormed = true) ∧
      ({ State.reset with inbox := [⟨true, [Instr.regWrite 320 9, .tick quietFb, .regRead 0].flatMap encode⟩] } :
        State).inbox = ⟨true, [Instr.regWrite 320 9, .tick quietFb, .regRead 0].flatMap encode⟩ :: [] := by
  decide +kernel
theorem witness_RefusedOperationOnlyRecorded :
    ({ State.reset with inbox := [⟨false, [0x00, 0x00, 0x00, 0x40]⟩] } : State).inbox =
        ⟨false, 0x00 :: [0x00, 0x00, 0x40]⟩ :: [] ∧
      decode (0x00 :: [0x00, 0x00, 0x40]) = .rejected .reservedClass [] ∧
      Reg.assigned (19 : BitVec 9).toNat = false ∧ Reg.assigned (320 : BitVec 9).toNat = true ∧
      Reg.mayHold (320 : BitVec 9).toNat 7 = false ∧ State.reset.openGuard.guardOpen = true := by decide +kernel
theorem witness_RegReadReturnsTheWord :
    Reg.assigned (0 : BitVec 9).toNat = true ∧ Reg.assigned (486 : BitVec 9).toNat = true := by decide +kernel
theorem witness_RegWriteStoresTheWord :
    State.reset.sound = true ∧ Reg.mayHold (464 : BitVec 9).toNat 10 = true ∧
      Reg.mayHold (320 : BitVec 9).toNat 6 = true ∧ Reg.mayHold (464 : BitVec 9).toNat 11 = false := by decide +kernel
theorem witness_RegWriteIsIdempotent :
    State.reset.sound = true ∧ Reg.mayHold (464 : BitVec 9).toNat 10 = true ∧
      completes (exec (.regWrite 464 10) State.reset) = true := by decide +kernel
theorem witness_ReadAfterWrite :
    State.reset.sound = true ∧ Reg.mayHold (150 : BitVec 9).toNat 0x40A00000 = true ∧
      completes (exec (.regWrite 150 0x40A00000) State.reset) = true := by decide +kernel
theorem witness_RequestLatch :
    (Instr.reqProbeConstR, FsmState.probeConstR) ∈ requestRows ∧ (Instr.reqHalt, FsmState.halt) ∈ requestRows ∧
      (stateWith [(466, 10)]).sound = true := by decide +kernel
/-- An accepted request, a rejected one, HALT, and HALT during HALT. -/
theorem witness_RequestConsumption :
    (stateWith [(466, 1)]).sound = true ∧ (stateWith [(466, 1)]).word 466 = FsmState.zeroDrift.code ∧
      (stateWith [(466, 1)]).gate .zeroDrift = true ∧
      (stateWith [(466, 7)]).sound = true ∧ (stateWith [(466, 7)]).word 466 = FsmState.luShutdown.code ∧
      (stateWith [(466, 7)]).gate .luShutdown = false ∧
      (stateWith [(466, 10)]).sound = true ∧ (stateWith [(466, 10)]).word 466 = FsmState.halt.code ∧
      (stateWith [(464, 10), (466, 10)]).sound = true ∧
      (stateWith [(464, 10), (466, 10)]).word 464 = FsmState.halt.code := by decide +kernel
theorem witness_TickFrame :
    State.reset.sound = true ∧ State.reset.guardOpen = false ∧ completes (exec (.tick quietFb) State.reset) = true := by
  decide +kernel
theorem witness_TickEmitsAtMostOneDuty :
    (stateWith [(466, 10)]).sound = true ∧ (stateWith [(466, 10)]).guardOpen = false ∧
      thenState (exec (.tick quietFb) (stateWith [(466, 10)])) (fun t => t.out.dutyCalls == 1) = true := by
  decide +kernel
theorem witness_InertiaOnlyByHostWrite :
    State.reset.sound = true ∧
      thenState (exec (.regWrite 37 0x3F800000) State.reset) (fun t => t.word 37 != State.reset.word 37) = true ∧
      thenState (exec (.regWrite 36 7) State.reset) (fun t => t.word 36 != State.reset.word 36) = true := by
  decide +kernel
theorem witness_IdleTickOnlyMeasures :
    State.reset.inv = true ∧ State.reset.word 464 = 0 ∧ State.reset.word 466 = 0 ∧ State.reset.word 320 = 0 ∧
      State.reset.word 389 = 0 ∧ State.reset.faultFree quietFb = true := by decide +kernel
/-- DETACHED one step before its startup timer ends, and HALT pending. -/
theorem witness_UndrivenTickCompletes :
    (stateWith [(320, 4), (324, 4), (81, 5), (466, 10)]).inv = true ∧
      (stateWith [(320, 4), (324, 4), (81, 5), (466, 10)]).word 464 = 0 ∧
      (stateWith [(320, 4), (324, 4), (81, 5), (466, 10)]).word 466 = FsmState.halt.code ∧
      (stateWith [(320, 4), (324, 4), (81, 5), (466, 10)]).word 320 = LuMode.detached.code ∧
      ((stateWith [(320, 4), (324, 4), (81, 5), (466, 10)]).word 324).toNat <
        ((stateWith [(320, 4), (324, 4), (81, 5), (466, 10)]).word 81).toNat ∧
      (stateWith [(464, 10)]).inv = true ∧ (stateWith [(464, 10)]).word 464 = FsmState.halt.code := by decide +kernel

/-- A phase current of 1 A against a limit of 0. -/
def overFb : Feedback := { quietFb with currentA := ⟨0x3F800000⟩ }

/-- A bus voltage of 1 V against a limit of 0. -/
def overVoltFb : Feedback := { quietFb with voltageU := ⟨0x3F800000⟩ }

/-- An over-current, and an over-voltage alone. -/
theorem witness_ElectricalFaultHaltsSameTick :
    State.reset.inv = true ∧ State.reset.params.haltSameTick = true ∧ State.reset.word 464 ≠ FsmState.halt.code ∧
      (State.reset.measured overFb).overCurrent = true ∧ (State.reset.measured overVoltFb).overVoltage = true ∧
      (State.reset.measured overVoltFb).overCurrent = false := by decide +kernel

/-- The reset state of a machine whose HALT waits for the next tick. -/
def lateHalt : State := { State.reset with params := { Params.default with haltSameTick := false } }

theorem witness_ElectricalFaultDeferred :
    lateHalt.inv = true ∧ lateHalt.params.haltSameTick = false ∧ lateHalt.word 464 = 0 ∧ lateHalt.word 466 = 0 ∧
      lateHalt.word 320 = 0 ∧ lateHalt.word 389 = 0 ∧ (lateHalt.measured overFb).overCurrent = true ∧
      (lateHalt.measured overVoltFb).overVoltage = true := by decide +kernel
/-- Both ends: the timer that ends with this count, and one that does not. -/
theorem witness_HaltSettlesToIdle :
    (stateWith [(464, 10), (465, 1), (468, 2), (469, 3)]).inv = true ∧
      (stateWith [(464, 10), (465, 1), (468, 2), (469, 3)]).word 464 = FsmState.halt.code ∧
      (stateWith [(464, 10), (465, 1), (468, 2), (469, 3)]).word 465 = 1 ∧
      ((stateWith [(464, 10), (465, 1), (468, 2), (469, 3)]).i Reg.tm_end).sle (I32.satInc 2) = true ∧
      (stateWith [(464, 10), (465, 1), (468, 1), (469, 3)]).inv = true ∧
      ((stateWith [(464, 10), (465, 1), (468, 1), (469, 3)]).i Reg.tm_end).sle (I32.satInc 1) = false := by
  decide +kernel
theorem witness_InitiateEntersDetached :
    (stateWith [(466, 6), (81, 1)]).inv = true ∧ (stateWith [(466, 6), (81, 1)]).word 464 = 0 ∧
      (stateWith [(466, 6), (81, 1)]).word 466 = FsmState.luInitiate.code ∧
      (stateWith [(466, 6), (81, 1)]).word 320 = 0 ∧ (stateWith [(466, 6), (81, 1)]).word 81 ≠ 0 ∧
      (stateWith [(466, 6), (81, 1)]).faultFree quietFb = true := by decide +kernel
theorem witness_ShutdownStopsTheMotor :
    (stateWith [(466, 7), (320, 2)]).inv = true ∧ (stateWith [(466, 7), (320, 2)]).word 464 = 0 ∧
      (stateWith [(466, 7), (320, 2)]).word 466 = FsmState.luShutdown.code ∧
      (stateWith [(466, 7), (320, 2)]).word 320 ≠ 0 ∧
      (stateWith [(466, 7), (320, 2)]).faultFree quietFb = true := by decide +kernel
/-- Accepted and rejected. -/
theorem witness_InertiaProbeDoesNothing :
    (stateWith [(466, 9), (320, 2)]).sound = true ∧ (stateWith [(466, 9), (320, 2)]).word 464 = 0 ∧
      (stateWith [(466, 9), (320, 2)]).word 466 = FsmState.probeConstJ.code ∧
      (stateWith [(466, 9), (320, 2)]).word 320 ≠ 0 ∧
      (stateWith [(466, 9)]).sound = true ∧ (stateWith [(466, 9)]).word 466 = FsmState.probeConstJ.code ∧
      (stateWith [(466, 9)]).word 320 = 0 := by decide +kernel
theorem witness_DetachedUntilStartupTimer :
    (stateWith [(320, 4), (466, 10), (81, 1)]).inv = true ∧
      (stateWith [(320, 4), (466, 10), (81, 1)]).word 320 = LuMode.detached.code ∧
      ((stateWith [(320, 4), (466, 10), (81, 1)]).word 324).toNat <
        ((stateWith [(320, 4), (466, 10), (81, 1)]).word 81).toNat ∧
      completes (exec (.tick quietFb) (stateWith [(320, 4), (466, 10), (81, 1)])) = true := by decide +kernel
theorem witness_LockedZoneStays :
    (stateWith [(347, 3)]).inv = true ∧ (stateWith [(347, 3)]).word 347 = Zone.locked.code ∧
      (stateWith [(347, 3)]).word 464 ≠ FsmState.luInitiate.code ∧
      (stateWith [(347, 3)]).word 466 ≠ FsmState.luInitiate.code ∧
      completes (exec (.tick quietFb) (stateWith [(347, 3)])) = true := by decide +kernel
theorem witness_ZoneNeverSkipsToHigh :
    State.reset.inv = true ∧ State.reset.word 347 = Zone.none.code ∧
      completes (exec (.tick quietFb) State.reset) = true ∧ (stateWith [(347, 3)]).inv = true ∧
      (stateWith [(347, 3)]).word 347 = Zone.locked.code := by decide +kernel
theorem witness_RaiseKeepsTheFirstCause :
    (stateWith [(466, 10), (467, 1)]).sound = true ∧ lateHalt.sound = true ∧ lateHalt.params.haltSameTick = false := by
  decide +kernel
/-- The invalid codes 0 and 7, the ninth and the tenth of them. -/
theorem witness_HallFaultOnTenthInvalidCode :
    (stateWith [(403, 8)]).sound = true ∧ ((stateWith [(403, 8)]).word Reg.fb_HS.num).toNat = 0 ∧
      ((stateWith [(403, 8)]).word 403).toNat < 9 ∧
      (stateWith [(263, 7), (403, 9)]).sound = true ∧
      7 ≤ ((stateWith [(263, 7), (403, 9)]).word Reg.fb_HS.num).toNat ∧
      ¬ ((stateWith [(263, 7), (403, 9)]).word 403).toNat < 9 := by decide +kernel
theorem witness_IntakeStoresAsDelivered : State.reset.sound = true := by decide +kernel
/-- Two sensors; of three: one invalid sample, each in either topology, none, and at most one valid (95 V41-5). -/
theorem witness_MissingPhaseRebuilt :
    (stateWith [(1, 0)]).sound = true ∧ (stateWith [(1, 0)]).word 1 = 0 ∧
      (stateWith [(1, 3), (294, 0), (256, 0x3F800000), (257, 0xBE800000)]).sound = true ∧
      ((stateWith [(1, 3), (294, 0), (256, 0x3F800000), (257, 0xBE800000)]).rebuild State.reset).word 258 =
        0xBF400000 ∧
      (stateWith [(1, 3), (292, 0)]).sound = true ∧ (stateWith [(1, 3), (292, 0)]).word 0 = 0 ∧
      (stateWith [(0, 1), (1, 3), (293, 0)]).sound = true ∧ (stateWith [(0, 1), (1, 3), (293, 0)]).word 0 = 1 ∧
      (stateWith [(1, 1)]).sound = true ∧ (stateWith [(1, 1)]).word 292 = 1 ∧
      (stateWith [(0, 1), (1, 3), (292, 0), (293, 0)]).sound = true := by decide +kernel
/-- With one valid sample of three the previous currents are kept, in both topologies (92 D59). -/
theorem test_few_valid_samples_keep_the_previous :
    (List.range 2).all (fun topology =>
      let s := stateWith [(0, BitVec.ofNat 32 topology), (1, 3), (292, 0), (293, 0), (256, 0x40A00000), (258, 0x40A00000)]
      let old := stateWith [(256, 0x3F800000), (257, 0x40000000), (258, 0xC0400000)]
      [256, 257, 258].all (fun n => (s.rebuild old).word n == old.word n)) = true := by decide +kernel
theorem witness_TerminalFilterShifts :
    State.reset.sound = true ∧ State.reset.word 2 = 0 ∧ (stateWith [(2, 1)]).sound = true ∧
      (stateWith [(2, 1)]).word 2 = 1 := by decide +kernel
theorem witness_EncoderCountInRevolution :
    State.reset.sound = true ∧ State.reset.word Reg.eabi_EPPR.num = 0 ∧
      (stateWith [(Reg.eabi_EPPR.num, 1)]).sound = true ∧
      (stateWith [(Reg.eabi_EPPR.num, 1)]).word Reg.eabi_EPPR.num ≠ 0 := by decide +kernel
/-- A count that goes below zero and one at the top of the range. -/
theorem witness_EncoderUnwrapIsExact :
    (stateWith [(Reg.eabi_EPPR.num, 4000)]).sound = true ∧
      (stateWith [(Reg.eabi_EPPR.num, 4000)]).word Reg.eabi_EPPR.num ≠ 0 ∧
      ((stateWith [(Reg.eabi_EPPR.num, 4000)]).i Reg.eabi_count + (-1 : I32)).toInt =
        ((stateWith [(Reg.eabi_EPPR.num, 4000)]).i Reg.eabi_count).toInt + (-1 : I32).toInt := by decide +kernel
theorem witness_ResolverCountsAtHalfTurn : (stateWith [(422, 5)]).sound = true := by decide +kernel
theorem witness_ZoneStepTable :
    State.reset.word 347 = Zone.none.code ∧ (stateWith [(347, 1)]).sound = true ∧
      (stateWith [(347, 1)]).word 347 = Zone.uncertain.code ∧ (stateWith [(347, 2)]).sound = true ∧
      (stateWith [(347, 2)]).word 347 = Zone.high.code ∧ (stateWith [(347, 3)]).sound = true ∧
      (stateWith [(347, 3)]).word 347 = Zone.locked.code ∧ (stateWith [(346, 0x7FC00000)]).sound = true ∧
      ((stateWith [(346, 0x7FC00000)]).f Reg.flux_wS).isNaN = true := by decide +kernel
theorem witness_LockGuardFlip :
    State.reset.sound = true ∧ State.reset.lockFlipped = false ∧
      (stateWith [(346, 0x437A0000), (353, 0xC3960000), (347, 2)]).sound = true ∧
      (stateWith [(346, 0x437A0000), (353, 0xC3960000), (347, 2)]).lockFlipped = true ∧
      ((stateWith [(350, 0x7FC00000)]).f (Reg.flux_X 0)).isNaN = true := by decide +kernel
/-- A zero determinant, and an infinite one. -/
theorem witness_DegenerateInnovation :
    State.reset.sound = true ∧ State.reset.innovationDet.gt F32.zero = false ∧
      (stateWith [(360, 0x7F800000), (365, 0x7F800000)]).sound = true ∧
      (stateWith [(360, 0x7F800000), (365, 0x7F800000)]).innovationDet.isFinite = false := by decide +kernel
/-- A candidate within the limit, and one beyond it. -/
theorem witness_BlendLimitsTheFrame :
    (stateWith [(320, 2)]).sound = true ∧ (stateWith [(320, 2)]).candidate.isSome = true ∧
      (((stateWith [(320, 2)]).params.rel ((stateWith [(320, 2)]).vec Reg.flux_F) ((stateWith [(320, 2)]).vec
        Reg.lu_F)).abs.le (((stateWith [(320, 2)]).f Reg.lu_rate).mul ((stateWith [(320, 2)]).f Reg.dT))) = true ∧
      (stateWith [(320, 2), (344, 0), (345, 0x3F800000)]).sound = true ∧
      (stateWith [(320, 2), (344, 0), (345, 0x3F800000)]).candidate.isSome = true ∧
      (((stateWith [(320, 2), (344, 0), (345, 0x3F800000)]).params.rel
        ((stateWith [(320, 2), (344, 0), (345, 0x3F800000)]).vec Reg.flux_F)
        ((stateWith [(320, 2), (344, 0), (345, 0x3F800000)]).vec Reg.lu_F)).abs.le
        (((stateWith [(320, 2), (344, 0), (345, 0x3F800000)]).f Reg.lu_rate).mul
          ((stateWith [(320, 2), (344, 0), (345, 0x3F800000)]).f Reg.dT))) = false := by decide +kernel
/-- At the guard and past it. -/
theorem witness_RevolutionGuard :
    (stateWith [(325, 4)]).sound = true ∧ (stateWith [(325, 5)]).sound = true ∧
      ¬ (4 : I32).toInt > 4 ∧ (4 : Int) < (5 : I32).toInt := by decide +kernel
theorem witness_ForcedBypassesSpeedLoop :
    (stateWith [(320, 1)]).sound = true ∧ (stateWith [(320, 1)]).word 320 = LuMode.forced.code := by decide +kernel
theorem witness_InjectionConsumedOnce :
    (stateWith [(392, 1)]).sound = true ∧ (stateWith [(392, 1)]).word Reg.hfi_inject.num = 1 ∧
      ((stateWith [(392, 1)]).injected ((stateWith [(392, 1)]).outputClamp (stateWith [(392, 1)]).piVoltage).v0).isNaN =
        false := by decide +kernel
/-- 45 R357's example, a setpoint of 5 A with a slew rate of 1 A a tick, and R359's, an integral of 15 within ±12. -/
def slewing : State :=
  stateWith [(150, 0x40A00000), (151, 0x41A00000), (153, 0x461C4000), (40, 0x38D1B717), (156, 0x3F000000),
    (259, 0x41C00000), (435, 0x41700000)]
theorem witness_CurrentTrackedAndIntegralBounded :
    slewing.sound = true ∧ (slewing.f Reg.i_slew_rate).eq F32.zero = false ∧ slewing.currentLoop.word 437 = 0x40A00000 ∧
      slewing.currentLoop.word 433 = 0x3F800000 ∧
      (slewing.windupLimit).ge F32.zero = true ∧ slewing.currentLoop.word 435 = 0x41400000 ∧
      State.reset.sound = true ∧ (State.reset.f Reg.i_slew_rate).eq F32.zero = true := by decide +kernel
/-- 46 R404's example, and a minimum pulse beyond the resolution. -/
theorem witness_MinimumPulse :
    0 ≤ (50 : I32).toInt ∧
      (∀ v ∈ [(1000 : I32), 980, 0], 0 ≤ v.toInt ∧ v.toInt ≤ (1000 : I32).toInt) ∧
      pulseShift false 1000 50 0 ⟨1000, 980, 0⟩ = ⟨950, 930, 0⟩ ∧
      0 ≤ (0x7FFFFFFF : I32).toInt ∧ (∀ v ∈ [(10 : I32), 5, 0], 0 ≤ v.toInt ∧ v.toInt ≤ (10 : I32).toInt) :=
  ⟨by simp, by simp, by decide +kernel, by simp, by simp⟩
theorem witness_CommonShiftSamplesTwoLegs :
    0 ≤ (pulseWindow false 1000 50 0).lo.toInt ∧ (∀ v ∈ [(1000 : I32), 980, 0], 0 ≤ v.toInt) ∧
      (sort3 ⟨1000, 980, 0⟩).c.toInt - (sort3 ⟨1000, 980, 0⟩).b.toInt ≤ (pulseWindow false 1000 50 0).hi.toInt -
        (pulseWindow false 1000 50 0).lo.toInt :=
  ⟨by simp [pulseWindow], by simp, by decide +kernel⟩
/-- In a window, at full past the timer, at full before it, and below full. -/
theorem witness_BootstrapRecharge :
    (stateWith [(304, 1)]).sound = true ∧ (stateWith [(304, 1)]).word (Reg.vsi_rch 0).num ≠ 0 ∧
      (stateWith [(41, 1000), (44, 2), (303, 2)]).sound = true ∧
      ((stateWith [(41, 1000), (44, 2), (303, 2)]).i Reg.tm_bootstrap).slt
        (I32.satInc ((stateWith [(41, 1000), (44, 2), (303, 2)]).i (Reg.vsi_bst 2))) = true ∧
      ((stateWith [(41, 1000), (44, 2), (303, 1)]).i Reg.tm_bootstrap).slt
        (I32.satInc ((stateWith [(41, 1000), (44, 2), (303, 1)]).i (Reg.vsi_bst 2))) = false := by decide +kernel
theorem witness_VoltageCountsInRange :
    (stateWith [(41, 1), (42, 1)]).sound = true ∧ (stateWith [(41, 1), (42, 1)]).tl.unmodelled = none ∧
      (stateWith [(41, 1), (42, 1)]).word Reg.pwm_resolution.num ≠ 0 ∧
      ((stateWith [(41, 1), (42, 1)]).word Reg.minimal_pulse.num).toNat ≤
        ((stateWith [(41, 1), (42, 1)]).word Reg.pwm_resolution.num).toNat ∧
      (stateWith [(41, 1), (42, 1)]).word Reg.minimal_pulse.num ≠ 0 ∧
      (stateWith [(41, 16777216)]).sound = true ∧
      ((stateWith [(41, 16777216)]).word Reg.pwm_resolution.num).toNat ≤ 16777216 ∧
      (stateWith [(41, 16777216)]).word Reg.minimal_pulse.num = 0 := by decide +kernel
theorem witness_ZeroResolutionZeroDuty :
    State.reset.sound = true ∧ State.reset.tl.unmodelled = none ∧ State.reset.tl.emitted = false ∧
      State.reset.word Reg.pwm_resolution.num = 0 ∧ (∀ i < 3, State.reset.word (Reg.vsi_rch i).num = 0) ∧
      (State.reset.pmVoltage Vec2.unitX Vec2.unitX).tl.unmodelled = none := by decide +kernel
/-- A duty at both ends of the range, one past it, and a second one. -/
theorem witness_DutySinkContract :
    (stateWith [(41, 1000)]).sound = true ∧ (stateWith [(41, 1000)]).word 41 = 1000 ∧
      (∀ v ∈ [(0 : I32), 1000, 500], 0 ≤ v.toInt ∧ v.toInt ≤ (1000 : Word).toInt) ∧
      ¬ (∀ v ∈ [(0 : I32), 1001, 500], 0 ≤ v.toInt ∧ v.toInt ≤ (1000 : Word).toInt) ∧
      (stateWith [(41, 1000)]).tl.emitted = false ∧
      ({ stateWith [(41, 1000)] with tl := ⟨true, false, none⟩ } : State).tl.emitted = true :=
  ⟨by decide +kernel, by decide +kernel, by simp, by simp, rfl, rfl⟩
theorem witness_ClassifyFlags : (stateWith [(1, 2), (41, 1000), (43, 30), (288, 980)]).sound = true := by decide +kernel
theorem witness_ZMaskFlags : State.reset.sound = true ∧ (7 : Word).toNat < 8 ∧ (0 : Word).toNat < 8 := by decide +kernel
/-- No samples, a drift beyond the tolerance, and none. -/
theorem witness_ZeroDriftFaultStoresNothing :
    State.reset.sound = true ∧ State.reset.word Reg.tm_probe.num = 0 ∧
      (stateWith [(193, 2), (476, 0x3F800000), (477, 0x3F800000)]).sound = true ∧
      (stateWith [(193, 2)]).word Reg.tm_probe.num ≠ 0 ∧ (stateWith [(193, 2)]).driftBad = false ∧
      (stateWith [(1, 3), (193, 2)]).sound = true ∧ (stateWith [(1, 3), (193, 2)]).driftBad = false ∧
      (stateWith [(193, 2), ((Reg.fsm_acc 0).num, 0x3F800000)]).sound = true ∧
      (stateWith [(193, 2), ((Reg.fsm_acc 0).num, 0x3F800000)]).word Reg.tm_probe.num ≠ 0 ∧
      (stateWith [(193, 2), ((Reg.fsm_acc 0).num, 0x3F800000)]).driftBad = true := by decide +kernel
theorem witness_PowerStagePatterns :
    (stateWith [(486, 0x1FF)]).sound = true ∧ (stateWith [(486, 0x1FF)]).word 486 = 0x1FF ∧
      (stateWith [(486, 0x111)]).sound = true ∧ (stateWith [(486, 0x111)]).word 486 = 0x111 ∧
      (stateWith [(486, 0)]).word 486 ≠ 0x1FF ∧ (stateWith [(486, 0)]).word 486 ≠ 0x111 := by decide +kernel

end Sys2Proof.Tests
end

/-!
PROOFS. The machine's invariant and the legal values of the register types (spec/10_state.md R56, R57): what one host
operation and one step can do, said once, and that each of their cases keeps the invariant.
-/

namespace Sys2Proof.Machine

/-! ### The legal values of a type (10 R56, R57) -/

theorem Reg.mayHold_eq_legal {n : Nat} {k : Kind} (hk : Reg.kindOf n = some k) (w : Word) :
    Reg.mayHold n w = k.legal w := by
  simp [Reg.mayHold, hk]

theorem Kind.enum_legal_iff {c : Nat} {w : Word} : (Kind.enum c).legal w = true ↔ w.toNat < c := Nat.blt_eq.to_iff

theorem Kind.bool_legal_iff {w : Word} : Kind.bool.legal w = true ↔ w.toNat < 2 := Nat.blt_eq.to_iff

theorem Kind.intLegal_iff_toInt_nonneg {w : Word} : Kind.intLegal w = true ↔ 0 ≤ w.toInt := by
  rw [State.Reach.intLegal_iff, BitVec.toInt_eq_toNat_cond]
  have := w.isLt
  split <;> omega

theorem F32.isNaN_eq_false_of_isFinite {x : F32} (h : x.isFinite = true) : x.isNaN = false := by
  simp only [F32.isFinite, F32.isNaN, Nat.blt_eq, Bool.eq_false_iff, ne_eq] at h ⊢
  omega

/-- The sign bit decides the order against zero, but for a zero of either sign. -/
theorem F32.key_nonneg_iff {x : F32} : 0 ≤ x.key ↔ x.sign = false ∨ x.isZero = true := by
  have hz : x.isZero = true ↔ x.mag = 0 := Nat.beq_eq.to_iff
  unfold F32.key
  cases x.sign with
  | true => simp [hz]
  | false => simp

/-- A number is not less than zero when its key is not: −0 is not less than zero (log entry 19). -/
theorem F32.ge_zero_iff {x : F32} (h : x.isNaN = false) : x.ge F32.zero = true ↔ 0 ≤ x.key := by
  have hn : F32.zero.isNaN = false := by decide
  have hk : F32.zero.key = 0 := by decide
  simp [F32.ge, F32.le, h, hn, hk]

theorem Kind.f32Legal_iff_finite_ge_zero {w : Word} :
    Kind.f32Legal w = true ↔ F32.isFinite ⟨w⟩ = true ∧ F32.ge ⟨w⟩ F32.zero = true := by
  rw [Kind.f32Legal, Bool.and_eq_true, Bool.or_eq_true, Bool.not_eq_true']
  refine and_congr_right fun hfin => ?_
  rw [F32.ge_zero_iff (F32.isNaN_eq_false_of_isFinite hfin), F32.key_nonneg_iff]

/-- Settles O14, type by type: each register's row of the table gives its type, and the type its legal set. -/
theorem legalValuesByType : Obligations.LegalValuesByType := by
  unfold Obligations.LegalValuesByType
  intro v
  rw [Reg.mayHold_eq_legal (k := .bool) (by decide +kernel),
    Reg.mayHold_eq_legal (k := .enum 7) (by decide +kernel),
    Reg.mayHold_eq_legal (k := .enum 11) (by decide +kernel),
    Reg.mayHold_eq_legal (k := .enum 10) (by decide +kernel),
    Reg.mayHold_eq_legal (k := .intNonNeg) (by decide +kernel),
    Reg.mayHold_eq_legal (k := .f32NonNeg) (by decide +kernel),
    Reg.mayHold_eq_legal (k := .f32) (by decide +kernel),
    Reg.mayHold_eq_legal (k := .i32) (by decide +kernel)]
  exact ⟨Kind.bool_legal_iff.trans Nat.lt_succ_iff, Kind.enum_legal_iff.trans Nat.lt_succ_iff,
    Kind.enum_legal_iff.trans Nat.lt_succ_iff, Kind.enum_legal_iff.trans Nat.lt_succ_iff,
    Kind.intLegal_iff_toInt_nonneg, Kind.f32Legal_iff_finite_ge_zero, rfl, rfl⟩

/-! ### What one host operation can do -/

/-- The states an operation can lead to from `s`, the state in which it has started (48 R481-R488). -/
inductive State.OpResult (s : State) : State → Prop where
  | refuse (why : RefusedOp) : s.OpResult (s.refuse why)
  | request (q : FsmState) : s.OpResult (s.request q)
  | respond (w : Word) : s.OpResult (s.respond w)
  | write (n : Nat) (w : Word) (legal : Reg.mayHold n w = true) : s.OpResult (s.store n w)
  | tick (fb : Feedback) (outsideGuard : s.guardOpen = false)
      (completes : (s.openTick.sequence fb).tl.unmodelled = none) : s.OpResult (s.openTick.sequence fb).closeTick

theorem State.opResult_hostWrite (s : State) (n : Nat) (w : Word) : s.OpResult (s.hostWrite n w) := by
  unfold State.hostWrite
  split
  · exact .write n w ‹_›
  · exact .refuse _

theorem State.runTick_next {s t : State} {fb : Feedback} (h : s.runTick fb = .next t) :
    (s.openTick.sequence fb).tl.unmodelled = none ∧ t = (s.openTick.sequence fb).closeTick := by
  unfold State.runTick State.endTick at h
  cases hu : (s.openTick.sequence fb).tl.unmodelled with
  | some why => rw [hu] at h; cases h
  | none => rw [hu] at h; exact ⟨rfl, (Host.Outcome.next.inj h).symm⟩

theorem State.opResult_execTick {s t : State} {fb : Feedback} (h : execTick fb s = .next t) : s.startOp.OpResult t := by
  unfold execTick at h
  split at h
  · cases h; exact .refuse _
  · obtain ⟨hu, rfl⟩ := State.runTick_next h
    exact .tick fb (by simpa using ‹¬ s.guardOpen = true›) hu

theorem State.opResult_execRegRead {s t : State} {reg : BitVec 9} (h : execRegRead reg s = .next t) :
    s.startOp.OpResult t := by
  unfold execRegRead at h
  split at h <;> cases h
  · exact .respond _
  · exact .refuse _

theorem State.opResult_execRegWrite {s t : State} {reg : BitVec 9} {v : Word} (h : execRegWrite reg v s = .next t) :
    s.startOp.OpResult t := by
  unfold execRegWrite at h
  split at h <;> cases h
  · exact State.opResult_hostWrite _ _ _
  · exact .refuse _

theorem State.opResult_exec {i : Instr} {s t : State} (h : exec i s = .next t) : s.startOp.OpResult t := by
  cases i with
  | tick fb => exact State.opResult_execTick h
  | regRead reg => exact State.opResult_execRegRead h
  | regWrite reg v => exact State.opResult_execRegWrite h
  | reqZeroDrift => cases h; exact .request _
  | reqPowerStageTest => cases h; exact .request _
  | reqAdjustCurrent => cases h; exact .request _
  | reqProbeConstR => cases h; exact .request _
  | reqProbeConstL => cases h; exact .request _
  | reqLuInitiate => cases h; exact .request _
  | reqLuShutdown => cases h; exact .request _
  | reqProbeConstE => cases h; exact .request _
  | reqProbeConstJ => cases h; exact .request _
  | reqHalt => cases h; exact .request _

/-! ### The invariant within an operation -/

theorem State.inv_iff (s : State) :
    s.inv = true ↔ s.sound = true ∧ s.tl = TickLocal.none ∧ s.guardOpen = false ∧ s.outputsOk = true ∧
      s.bridge.ok = true := by
  simp [State.inv, and_assoc]

/-- The invariant of a state whose operation has called no sink yet, with the GUARD at `g`. That no call stands in the
outputs is what keeps their contract when a REG_WRITE lowers `pwm_resolution`. -/
structure State.Unsent (g : Bool) (s : State) : Prop where
  sound : s.sound = true
  marks : s.tl = TickLocal.none
  guard : s.guardOpen = g
  sinks : s.out.sinks = []
  bridge : s.bridge.ok = true

namespace State.Unsent

variable {g : Bool} {s t : State}

theorem inv (h : s.Unsent false) : s.inv = true :=
  s.inv_iff.mpr ⟨h.sound, h.marks, h.guard, by simp [State.outputsOk, Outputs.dutyCalls, h.sinks], h.bridge⟩

theorem startOp (h : s.Unsent g) : s.startOp.Unsent g where
  sound := by simpa [State.sound] using h.sound
  marks := by simpa using h.marks
  guard := by simpa using h.guard
  sinks := by rw [State.startOp_out]; split <;> simp [h.sinks, Outputs.none]
  bridge := by simpa using h.bridge

/-- A new operation outside a GUARD forgets the outputs of the last one. -/
theorem startOp_of_inv (h : s.inv = true) : s.startOp.Unsent false := by
  obtain ⟨hsound, hmarks, hguard, -, hbridge⟩ := s.inv_iff.mp h
  exact ⟨by simpa [State.sound] using hsound, by simpa using hmarks, by simpa using hguard,
    by simp [State.startOp_out, hguard, Outputs.none], by simpa using hbridge⟩

theorem openGuard (h : s.startOp.Unsent false) : s.openGuard.Unsent true :=
  ⟨h.sound, h.marks, rfl, h.sinks, h.bridge⟩

theorem closeGuard (h : s.Unsent true) : s.closeGuard.Unsent false :=
  ⟨h.sound, h.marks, rfl, h.sinks, h.bridge⟩

theorem refuse (h : s.Unsent g) (why : RefusedOp) : (s.refuse why).Unsent g :=
  ⟨h.sound, h.marks, h.guard, h.sinks, h.bridge⟩

theorem respond (h : s.Unsent g) (w : Word) : (s.respond w).Unsent g :=
  ⟨h.sound, h.marks, h.guard, h.sinks, h.bridge⟩

theorem store (h : s.Unsent g) {n : Nat} {w : Word} (hw : Reg.mayHold n w = true) : (s.store n w).Unsent g :=
  ⟨s.sound_store h.sound hw, h.marks, h.guard, h.sinks, h.bridge⟩

theorem request (h : s.Unsent g) (q : FsmState) : (s.request q).Unsent g := by
  unfold State.request
  split
  · exact h
  · rw [State.set_legal _ _ (FsmState.code_legal q)]
    exact h.store (Reg.mayHold_of_kind (by decide +kernel) (FsmState.code_legal q))

theorem openTick (h : s.Unsent g) : s.openTick.Unsent g :=
  ⟨h.sound, rfl, h.guard, h.sinks, h.bridge⟩

/-- What a TICK's steps can do (`State.Reach`) keeps the sinks' contract, and the end of the TICK clears the marks. -/
theorem closeTick_inv {W : Ranges} {F : List Fault} (h : s.Unsent false) (hreach : State.Reach W F s t) :
    t.closeTick.inv = true := by
  obtain ⟨l, hl, hok, hcount⟩ := hreach.sinks
  have hsinks : t.out.sinks = l := by simpa [h.sinks] using hl
  have hres : t.i Reg.pwm_resolution = s.word 41 := hreach.resolution
  have hone : t.out.dutyCalls ≤ 1 := by
    have := Bool.toNat_le t.tl.emitted
    rw [Outputs.dutyCalls, hsinks]
    omega
  have hout : t.outputsOk = true := by simp [State.outputsOk, hsinks, hres, hok, hone]
  exact t.closeTick.inv_iff.mpr
    ⟨hreach.sound h.sound, rfl, hreach.guardOpen.trans h.guard, hout, hreach.bridge h.bridge⟩

theorem tick_inv (h : s.Unsent false) (fb : Feedback) : (s.openTick.sequence fb).closeTick.inv = true :=
  h.openTick.closeTick_inv (State.reach_sequence h.openTick.sound fb)

theorem opResult_inv (h : s.Unsent false) (ht : s.OpResult t) : t.inv = true := by
  cases ht with
  | refuse why => exact (h.refuse why).inv
  | request q => exact (h.request q).inv
  | respond w => exact (h.respond w).inv
  | write n w hw => exact (h.store hw).inv
  | tick fb _ _ => exact h.tick_inv fb

/-- Inside a GUARD there is no TICK, so no operation calls a sink (30 R150). -/
theorem opResult_guarded (h : s.Unsent true) (ht : s.OpResult t) : t.Unsent true := by
  cases ht with
  | refuse why => exact h.refuse why
  | request q => exact h.request q
  | respond w => exact h.respond w
  | write n w hw => exact h.store hw
  | tick fb hg _ => exact absurd (h.guard.symm.trans hg) (by decide)

theorem of_runGuarded {n : Nat} {bytes : List Byte} (h : s.Unsent true)
    (ht : runGuarded n bytes s = .next t) : t.Unsent true := by
  induction n generalizing bytes s with
  | zero => cases ht; exact h
  | succ n ih =>
    cases bytes with
    | nil => cases ht; exact h
    | cons b bs =>
      rw [runGuarded] at ht
      cases hd : decode (b :: bs) with
      | rejected why rest =>
        rw [hd] at ht
        exact ih (h.startOp.refuse _) ht
      | op i rest =>
        rw [hd] at ht
        cases he : exec i s with
        | next u =>
          simp only [he] at ht
          exact ih (h.startOp.opResult_guarded (State.opResult_exec he)) ht
        | fault why => simp only [he] at ht; cases ht
        | refused why => simp only [he] at ht; cases ht

end State.Unsent

/-! ### The invariant over a step -/

section
variable {s t : State}

theorem State.inv_setInbox (h : s.inv = true) (inbox : List Segment) : (s.setInbox inbox).inv = true := h

theorem exec_inv {i : Instr} (h : s.inv = true) (ht : exec i s = .next t) : t.inv = true :=
  (State.Unsent.startOp_of_inv h).opResult_inv (State.opResult_exec ht)

theorem State.stepBytes_inv {bytes : List Byte} {later : List Segment} (h : s.inv = true)
    (ht : s.stepBytes bytes later = .next t) : t.inv = true := by
  cases bytes with
  | nil => cases ht; exact State.inv_setInbox h later
  | cons b bs =>
    rw [State.stepBytes] at ht
    cases hd : decode (b :: bs) with
    | op i rest => rw [hd] at ht; exact exec_inv (State.inv_setInbox h _) ht
    | rejected why rest =>
      rw [hd] at ht
      cases ht
      exact ((State.Unsent.startOp_of_inv (State.inv_setInbox h _)).refuse _).inv

theorem State.stepGuard_inv {bytes : List Byte} {later : List Segment} (h : s.inv = true)
    (ht : s.stepGuard bytes later = .next t) : t.inv = true := by
  unfold State.stepGuard at ht
  have hopen : (s.setInbox later).openGuard.Unsent true :=
    .openGuard (State.Unsent.startOp_of_inv (State.inv_setInbox h later))
  cases hr : runGuarded bytes.length bytes (s.setInbox later).openGuard with
  | next u => rw [hr] at ht; cases ht; exact (hopen.of_runGuarded hr).closeGuard.inv
  | fault why => rw [hr] at ht; cases ht
  | refused why => rw [hr] at ht; cases ht

theorem State.hostStep_inv (h : s.inv = true) (ht : s.hostStep = .next t) : t.inv = true := by
  unfold State.hostStep at ht
  split at ht
  · cases ht; exact h
  · split at ht
    · exact State.stepGuard_inv h ht
    · exact State.stepBytes_inv h ht

end

/-- Settles O1: a step runs one operation or one guarded group, and both keep the invariant. -/
theorem stepKeepsInvariant : Obligations.StepKeepsInvariant := by
  unfold Obligations.StepKeepsInvariant
  exact fun _ _ => State.hostStep_inv

end Sys2Proof.Machine

/-!
PROOFS. The schedule and the register operations of spec/20_memory.md: a step runs what it decodes (R108), a guarded
group is one step (R110), a legal REG_WRITE is what the next REG_READ returns, and repeating it changes nothing (R106).
-/

namespace Sys2Proof.Machine

/-! ### The decoder on encoded operations (30 R144, R145) -/

theorem encodePayload_length (i : Instr) : (encodePayload i).length = payloadWords (opClass (encodeWord i)) := by
  cases i with
  | tick fb => exact Laws.PayloadLength.tick fb
  | reqZeroDrift => exact Laws.PayloadLength.reqZeroDrift
  | reqPowerStageTest => exact Laws.PayloadLength.reqPowerStageTest
  | reqAdjustCurrent => exact Laws.PayloadLength.reqAdjustCurrent
  | reqProbeConstR => exact Laws.PayloadLength.reqProbeConstR
  | reqProbeConstL => exact Laws.PayloadLength.reqProbeConstL
  | reqLuInitiate => exact Laws.PayloadLength.reqLuInitiate
  | reqLuShutdown => exact Laws.PayloadLength.reqLuShutdown
  | reqProbeConstE => exact Laws.PayloadLength.reqProbeConstE
  | reqProbeConstJ => exact Laws.PayloadLength.reqProbeConstJ
  | reqHalt => exact Laws.PayloadLength.reqHalt
  | regRead reg => exact Laws.PayloadLength.regRead reg
  | regWrite reg v => exact Laws.PayloadLength.regWrite reg v

theorem decodeWord_tick (fb : Feedback) : decodeWord 0 (wordsOfFeedback fb) = .ok (.tick fb) := by
  have hclass : opClass 0#32 = 0 := by decide
  have hfb : feedbackOf (wordsOfFeedback fb) = some fb := rfl
  simp [decodeWord, hclass, hfb]

theorem decodeWord_regRead {reg : BitVec 9} (h : Reg.assigned reg.toNat = true) :
    decodeWord (encodeWord (.regRead reg)) [] = .ok (.regRead reg) := by
  obtain ⟨hclass, hformat, hfield⟩ := regRead_word reg
  simp [decodeWord, hclass, hformat, hfield, h]

theorem decodeWord_regWrite {reg : BitVec 9} (h : Reg.assigned reg.toNat = true) (v : Word) :
    decodeWord (encodeWord (.regWrite reg v)) [v] = .ok (.regWrite reg v) := by
  obtain ⟨hclass, hformat, hfield⟩ := regWrite_word reg v
  simp [decodeWord, hclass, hformat, hfield, h]

/-- The word and the payload of a well-formed operation are read as that operation. -/
theorem decodeWord_encode {i : Instr} (h : i.wellFormed = true) :
    decodeWord (encodeWord i) (encodePayload i) = .ok i := by
  cases i with
  | tick fb => exact decodeWord_tick fb
  | reqZeroDrift => rfl
  | reqPowerStageTest => rfl
  | reqAdjustCurrent => rfl
  | reqProbeConstR => rfl
  | reqProbeConstL => rfl
  | reqLuInitiate => rfl
  | reqLuShutdown => rfl
  | reqProbeConstE => rfl
  | reqProbeConstJ => rfl
  | reqHalt => rfl
  | regRead reg => exact decodeWord_regRead h
  | regWrite reg v => exact decodeWord_regWrite h v

theorem decode_encode {i : Instr} (h : i.wellFormed = true) (rest : List Byte) :
    decode (encode i ++ rest) = .op i rest := by
  have hwords : takeWords (payloadWords (opClass (encodeWord i))) ((encodePayload i).flatMap bytesOfWord ++ rest) =
      some (encodePayload i, rest) := encodePayload_length i ▸ takeWords_flatMap (encodePayload i) rest
  simp only [decode, takeWord_encode, hwords, decodeWord_encode h]

/-! ### One unguarded step (20 R108, 48 R480) -/

theorem step_unguarded {s : State} {bytes : List Byte} {later : List Segment}
    (h : s.inbox = ⟨false, bytes⟩ :: later) : step s = s.stepBytes bytes later := by
  simp [step, State.hostStep, h]

theorem step_guarded {s : State} {bytes : List Byte} {later : List Segment}
    (h : s.inbox = ⟨true, bytes⟩ :: later) : step s = s.stepGuard bytes later := by
  simp [step, State.hostStep, h]

theorem State.stepBytes_op (s : State) {bytes rest : List Byte} {i : Instr} (later : List Segment)
    (h : decode bytes = .op i rest) : s.stepBytes bytes later = exec i (s.setInbox (leftOver rest later)) := by
  cases bytes with
  | nil => cases h
  | cons b bs => simp only [State.stepBytes, h]

/-- Settles O9: the segment's first operation is what `stepBytes` executes. -/
theorem stepRunsDecoded : Obligations.StepRunsDecoded := by
  unfold Obligations.StepRunsDecoded
  intro s bytes rest later i hinbox hdecode
  exact (step_unguarded hinbox).trans (s.stepBytes_op later hdecode)

/-! ### Stores and the start of an operation -/

/-- Storing the same value twice is storing it once, the reset of `fsm_phase` included (20 R106, 10 R57). -/
theorem State.store_store {s : State} (h : s.regs.wf = true) (n : Nat) (w : Word) :
    (s.store n w).store n w = s.store n w := by
  have hwf := s.wf_store h n w
  have hregs : ((s.store n w).store n w).regs = (s.store n w).regs := by
    refine RegFile.ext (State.wf_store _ hwf n w) hwf fun m => ?_
    change ((s.store n w).store n w).word m = (s.store n w).word m
    rw [State.word_store _ hwf, State.word_store _ h]
    split_ifs <;> rfl
  exact congrArg (fun r => { s.store n w with regs := r }) hregs

theorem State.startOp_startOp (s : State) : s.startOp.startOp = s.startOp := by
  cases h : s.guardOpen <;> simp [State.startOp, h]

/-- The outputs are forgotten before or after a store alike. -/
theorem State.startOp_store (s : State) (n : Nat) (w : Word) : (s.store n w).startOp = s.startOp.store n w := by
  cases h : s.guardOpen <;> simp [State.startOp, State.store, h]

/-! ### A legal REG_WRITE, and the REG_READ after it (48 R482, R483) -/

theorem Reg.assigned_of_mayHold {n : Nat} {w : Word} (h : Reg.mayHold n w = true) : Reg.assigned n = true := by
  cases hk : Reg.kindOf n with
  | none => simp [Reg.mayHold, hk] at h
  | some k => simp [Reg.assigned, hk]

theorem exec_regWrite_legal (s : State) {reg : BitVec 9} {v : Word} (h : Reg.mayHold reg.toNat v = true) :
    exec (.regWrite reg v) s = .next (s.startOp.store reg.toNat v) := by
  simp [exec, execRegWrite, State.hostWrite, Reg.assigned_of_mayHold h, h]

theorem exec_regRead_assigned (s : State) {reg : BitVec 9} (h : Reg.assigned reg.toNat = true) :
    exec (.regRead reg) s = .next (s.startOp.respond (s.word reg.toNat)) := by
  simp [exec, execRegRead, h]

/-- Settles O15: the second write starts from the outputs the first one left, and stores the same value over it. -/
theorem regWriteIsIdempotent : Obligations.RegWriteIsIdempotent := by
  unfold Obligations.RegWriteIsIdempotent
  intro s t reg v hsound hlegal ht
  rw [exec_regWrite_legal s hlegal] at ht
  cases ht
  have hwf : s.startOp.regs.wf = true := by simpa using (s.sound_iff.mp hsound).1
  rw [exec_regWrite_legal _ hlegal, State.startOp_store, State.startOp_startOp, State.store_store hwf]

/-- Settles O16: the write stores the value, and the read responds with the register's word. -/
theorem readAfterWrite : Obligations.ReadAfterWrite := by
  unfold Obligations.ReadAfterWrite
  intro s t reg v hsound hlegal ht
  rw [exec_regWrite_legal s hlegal] at ht
  cases ht
  have hwf : s.startOp.regs.wf = true := by simpa using (s.sound_iff.mp hsound).1
  have hword : (s.startOp.store reg.toNat v).word reg.toNat = v := by rw [State.word_store _ hwf, if_pos rfl]
  exact ⟨_, exec_regRead_assigned _ (Reg.assigned_of_mayHold hlegal), by simp [hword], by simp⟩

/-! ### A guarded group (20 R110, 30 R150) -/

/-- What the operations inside a GUARD leave as it was: the GUARD, the sinks, the bridge and the cycle count. -/
structure State.GuardFrame (s t : State) : Prop where
  guardOpen : t.guardOpen = s.guardOpen
  sinks : t.out.sinks = s.out.sinks
  bridge : t.bridge = s.bridge
  tick : t.tick = s.tick

theorem State.GuardFrame.refl (s : State) : s.GuardFrame s := ⟨rfl, rfl, rfl, rfl⟩

theorem State.GuardFrame.trans {s t u : State} (h : s.GuardFrame t) (h' : t.GuardFrame u) : s.GuardFrame u :=
  ⟨h'.guardOpen.trans h.guardOpen, h'.sinks.trans h.sinks, h'.bridge.trans h.bridge, h'.tick.trans h.tick⟩

theorem State.startOp_of_guardOpen {s : State} (h : s.guardOpen = true) : s.startOp = s := by
  simp [State.startOp, h]

theorem State.guardFrame_request (s : State) (q : FsmState) : s.GuardFrame (s.request q) := by
  unfold State.request
  split
  · exact .refl s
  · rw [State.set_legal _ _ (FsmState.code_legal q)]
    exact ⟨rfl, rfl, rfl, rfl⟩

/-- Of the operations' results only a TICK's leaves the frame, and a GUARD refuses the TICK. -/
theorem State.OpResult.guardFrame {s t : State} (hguard : s.guardOpen = true) (h : s.OpResult t) : s.GuardFrame t := by
  cases h with
  | refuse why => exact ⟨rfl, rfl, rfl, rfl⟩
  | request q => exact s.guardFrame_request q
  | respond w => exact ⟨rfl, rfl, rfl, rfl⟩
  | write n w _ => exact ⟨rfl, rfl, rfl, rfl⟩
  | tick fb hclosed _ => exact absurd (hguard.symm.trans hclosed) (by decide)

/-- Every operation but a TICK answers a next state (48 R482, R483, R487, R488). -/
theorem exec_next_of_not_tick {i : Instr} (s : State) (h : ∀ fb, i ≠ .tick fb) : ∃ t, exec i s = .next t := by
  cases i with
  | tick fb => exact absurd rfl (h fb)
  | regRead reg => simp only [exec, execRegRead]; split <;> exact ⟨_, rfl⟩
  | regWrite reg v => simp only [exec, execRegWrite]; split <;> exact ⟨_, rfl⟩
  | reqZeroDrift => exact ⟨_, rfl⟩
  | reqPowerStageTest => exact ⟨_, rfl⟩
  | reqAdjustCurrent => exact ⟨_, rfl⟩
  | reqProbeConstR => exact ⟨_, rfl⟩
  | reqProbeConstL => exact ⟨_, rfl⟩
  | reqLuInitiate => exact ⟨_, rfl⟩
  | reqLuShutdown => exact ⟨_, rfl⟩
  | reqProbeConstE => exact ⟨_, rfl⟩
  | reqProbeConstJ => exact ⟨_, rfl⟩
  | reqHalt => exact ⟨_, rfl⟩

theorem exec_tick_of_guardOpen {s : State} (h : s.guardOpen = true) (fb : Feedback) :
    exec (.tick fb) s = .next (s.startOp.refuse .tickInGuard) := by
  simp [exec, execTick, h]

/-- Inside a GUARD every operation answers a next state, a TICK too, and keeps the frame. -/
theorem exec_next_of_guardOpen {s : State} (h : s.guardOpen = true) (i : Instr) :
    ∃ t, exec i s = .next t ∧ s.GuardFrame t := by
  obtain ⟨t, ht⟩ : ∃ t, exec i s = .next t := by
    by_cases hi : ∃ fb, i = .tick fb
    · obtain ⟨fb, rfl⟩ := hi
      exact ⟨_, exec_tick_of_guardOpen h fb⟩
    · exact exec_next_of_not_tick s (not_exists.mp hi)
  have hop : s.OpResult t := State.startOp_of_guardOpen h ▸ State.opResult_exec ht
  exact ⟨t, ht, hop.guardFrame h⟩

theorem State.exists_runs_of_guardOpen {s : State} (h : s.guardOpen = true) (is : List Instr) :
    ∃ t, State.Runs is s t ∧ s.GuardFrame t := by
  induction is generalizing s with
  | nil => exact ⟨s, rfl, .refl s⟩
  | cons i is ih =>
    obtain ⟨u, hu, hsu⟩ := exec_next_of_guardOpen h i
    obtain ⟨t, ht, hut⟩ := ih (hsu.guardOpen.trans h)
    exact ⟨t, ⟨u, hu, ht⟩, hsu.trans hut⟩

/-- One round of `runGuarded`: the operation its bytes begin with, then the rest with one unit of fuel less. -/
theorem runGuarded_op {s u : State} {i : Instr} {bytes rest : List Byte} (n : Nat) (hdecode : decode bytes = .op i rest)
    (hexec : exec i s = .next u) : runGuarded (n + 1) bytes s = runGuarded n rest u := by
  cases bytes with
  | nil => cases hdecode
  | cons b bs => simp only [runGuarded, hdecode, hexec]

/-- With a unit of fuel for every byte, the group's bytes run as the operations they encode. -/
theorem runGuarded_encoded {s t : State} {is : List Instr} {n : Nat} (hwf : ∀ i ∈ is, i.wellFormed = true)
    (hruns : State.Runs is s t) (hfuel : (is.flatMap encode).length ≤ n) :
    runGuarded n (is.flatMap encode) s = .next t := by
  induction is generalizing s n with
  | nil => cases hruns; cases n <;> rfl
  | cons i is ih =>
    obtain ⟨u, hexec, hrest⟩ := hruns
    obtain ⟨hi, his⟩ := List.forall_mem_cons.mp hwf
    rw [List.flatMap_cons] at hfuel ⊢
    have hlength := encode_length i
    rw [List.length_append] at hfuel
    obtain ⟨m, rfl⟩ : ∃ m, n = m + 1 := ⟨n - 1, by omega⟩
    rw [runGuarded_op m (decode_encode hi _) hexec]
    exact ih his hrest (by omega)

/-- Settles O10: the group's bytes decode to its operations, none of which stops or leaves the frame inside a GUARD. -/
theorem guardRunsTheGroup : Obligations.GuardRunsTheGroup := by
  unfold Obligations.GuardRunsTheGroup
  intro s is later hclosed hwf hinbox
  obtain ⟨t, hruns, hframe⟩ := State.exists_runs_of_guardOpen (s.setInbox later).openGuard_guardOpen is
  have hsinks : (s.setInbox later).openGuard.out.sinks = [] := by
    simp [State.openGuard_out, hclosed, Outputs.none]
  have hstep : step s = .next t.closeGuard := by
    rw [step_guarded hinbox, State.stepGuard, runGuarded_encoded hwf hruns le_rfl]
  exact ⟨t, hruns, hstep, hframe.sinks.trans hsinks, hframe.bridge.trans (State.openGuard_bridge _),
    hframe.tick.trans (State.openGuard_tick _)⟩

end Sys2Proof.Machine

/-!
PROOFS. The encoding of host operations (spec/30_encoding.md R130-R133, R144-R146), read in both directions, and the
contract of the output sinks over one TICK (R134, R141).
-/

namespace Sys2Proof

/-! ### The byte order read backwards (20 R102) -/

theorem bytesOfWord_wordOfBytes (b0 b1 b2 b3 : Byte) : bytesOfWord (wordOfBytes b0 b1 b2 b3) = [b0, b1, b2, b3] := by
  have hbyte0 : (b3 ++ b2 ++ b1 ++ b0).extractLsb' 0 8 = b0 := BitVec.extractLsb'_append_eq_right
  have hbyte1 : (b3 ++ b2 ++ b1 ++ b0).extractLsb' 8 8 = b1 := by
    rw [BitVec.extractLsb'_append_eq_of_le le_rfl, BitVec.extractLsb'_append_eq_right]
  have hbyte2 : (b3 ++ b2 ++ b1 ++ b0).extractLsb' 16 8 = b2 := by
    rw [BitVec.extractLsb'_append_eq_of_le (by decide), BitVec.extractLsb'_append_eq_of_le (by decide),
      BitVec.extractLsb'_append_eq_right]
  have hbyte3 : (b3 ++ b2 ++ b1 ++ b0).extractLsb' 24 8 = b3 := by
    rw [BitVec.extractLsb'_append_eq_of_le (by decide), BitVec.extractLsb'_append_eq_of_le (by decide),
      BitVec.extractLsb'_append_eq_left]
  simp only [bytesOfWord, wordOfBytes, List.cons.injEq]
  exact ⟨hbyte0, hbyte1, hbyte2, hbyte3, trivial⟩

theorem takeWord_eq_some {bytes rest : List Byte} {w : Word} (h : takeWord bytes = some (w, rest)) :
    bytes = bytesOfWord w ++ rest := by
  unfold takeWord at h
  split at h <;> cases h
  rw [bytesOfWord_wordOfBytes]
  rfl

theorem takeWords_eq_some {n : Nat} {bytes rest : List Byte} {ws : List Word}
    (h : takeWords n bytes = some (ws, rest)) : ws.length = n ∧ bytes = ws.flatMap bytesOfWord ++ rest := by
  induction n generalizing bytes ws with
  | zero => cases h; exact ⟨rfl, rfl⟩
  | succ n ih =>
    rw [takeWords] at h
    split at h
    · cases h
    next hword =>
      split at h <;> cases h
      next hwords =>
        obtain ⟨hlength, hbytes⟩ := ih hwords
        rw [takeWord_eq_some hword, hbytes]
        simp [hlength]

/-! ### An operation word from its fields (30 R130-R132) -/

theorem classField_eq {w : Word} {cls : Nat} (h : opClass w = cls) : w.extractLsb' 28 4 = BitVec.ofNat 4 cls := by
  rw [← h]
  rfl

theorem reqWord_eq {w : Word} (hclass : opClass w = 1) (hformat : reqFormat w = true) :
    w = 0x100000#24 ++ w.extractLsb' 0 8 := by
  have hzero : w.extractLsb' 8 20 = 0 := by simpa [reqFormat] using hformat
  have hhigh : w.extractLsb' 8 24 = 0x100000#24 := by
    rw [← BitVec.extractLsb'_append_extractLsb'_eq_extractLsb' (start₂ := 28) (len₂ := 4) (len₁ := 20) rfl, hzero,
      classField_eq hclass]
    rfl
  rw [← hhigh]
  exact (BitVec.extractLsb'_append_extractLsb' (w := 24) (len := 8)).symm

theorem regWord_eq {w : Word} {cls : Nat} (hclass : opClass w = cls) (hformat : regFormat w = true) :
    w = (BitVec.ofNat 4 cls ++ 0#19) ++ regField w := by
  have hzero : w.extractLsb' 9 19 = 0#19 := by simpa [regFormat] using hformat
  rw [← classField_eq hclass, ← hzero, BitVec.extractLsb'_append_extractLsb'_eq_extractLsb' (start₂ := 28) rfl]
  exact (BitVec.extractLsb'_append_extractLsb' (w := 23) (len := 9)).symm

theorem encodeWord_regRead (reg : BitVec 9) : encodeWord (.regRead reg) = (2#4 ++ 0#19) ++ reg :=
  congrArg (· ++ reg) (by decide)

theorem encodeWord_regWrite (reg : BitVec 9) (v : Word) : encodeWord (.regWrite reg v) = (3#4 ++ 0#19) ++ reg :=
  congrArg (· ++ reg) (by decide)

/-! ### What the decoder reads is an encoding (30 R145, R146) -/

/-- The operation word and the payload are those of `i`, an operation the encoding admits. -/
structure Instr.IsEncoding (i : Instr) (w : Word) (payload : List Word) : Prop where
  wellFormed : i.wellFormed = true
  word : w = encodeWord i
  payload : payload = encodePayload i

theorem feedbackOf_eq_some {ws : List Word} {fb : Feedback} (h : feedbackOf ws = some fb) : ws = wordsOfFeedback fb := by
  unfold feedbackOf at h
  split at h <;> cases h
  rfl

theorem isEncoding_of_requestOf {code : Nat} {i : Instr} (h : requestOf code = some i) :
    i.IsEncoding (0x100000#24 ++ BitVec.ofNat 8 code) [] := by
  unfold requestOf at h
  split at h <;> cases h
  all_goals exact ⟨rfl, rfl, rfl⟩

/-- A word that decodes with the payload its class takes is the word of the operation read. -/
theorem isEncoding_of_decodeWord {w : Word} {payload : List Word} {i : Instr} (h : decodeWord w payload = .ok i)
    (hlength : payload.length = payloadWords (opClass w)) : i.IsEncoding w payload := by
  unfold decodeWord at h
  split at h
  next hclass => -- TICK
    split_ifs at h with hzero
    split at h <;> cases h
    next hfb => exact ⟨rfl, hzero, feedbackOf_eq_some hfb⟩
  next hclass => -- REQ
    split_ifs at h with hformat
    split at h <;> cases h
    next hreq =>
      rw [hclass] at hlength
      rw [reqWord_eq hclass hformat, List.eq_nil_of_length_eq_zero hlength]
      simpa only [BitVec.ofNat_toNat, BitVec.setWidth_eq] using isEncoding_of_requestOf hreq
  next hclass => -- REG_READ
    split_ifs at h with hformat hassigned
    cases h
    rw [hclass] at hlength
    have hword := regWord_eq hclass (by simpa using hformat)
    exact ⟨hassigned, hword.trans (encodeWord_regRead _).symm, List.eq_nil_of_length_eq_zero hlength⟩
  next hclass => -- REG_WRITE
    split_ifs at h with hformat hassigned
    split at h <;> cases h
    have hword := regWord_eq hclass (by simpa using hformat)
    exact ⟨hassigned, hword.trans (encodeWord_regWrite _ _).symm, rfl⟩
  · cases h -- a reserved class

theorem Instr.IsEncoding.encode_eq {i : Instr} {w : Word} {payload : List Word} (h : i.IsEncoding w payload) :
    encode i = (w :: payload).flatMap bytesOfWord := by
  rw [h.word, h.payload]
  rfl

theorem decode_eq_op {bytes rest : List Byte} {i : Instr} (h : decode bytes = .op i rest) :
    i.wellFormed = true ∧ bytes = encode i ++ rest := by
  unfold decode at h
  split at h
  · cases h
  next hword =>
    split at h
    · cases h
    next hwords =>
      split at h <;> cases h
      next hdecode =>
        obtain ⟨hlength, hpayload⟩ := takeWords_eq_some hwords
        have hencoding := isEncoding_of_decodeWord hdecode hlength
        refine ⟨hencoding.wellFormed, ?_⟩
        rw [hencoding.encode_eq, takeWord_eq_some hword, hpayload, List.flatMap_cons, List.append_assoc]

end Sys2Proof

namespace Sys2Proof.Machine

/-- Settles O6: the decoder takes the words the encoder wrote, and reads the word of each of the 13 operations back. -/
theorem decodeOfEncode : Obligations.DecodeOfEncode := by
  unfold Obligations.DecodeOfEncode
  exact fun _ rest hwf => decode_encode hwf rest

/-- Settles O7: class by class, the format bits and the fields of an accepted word fix the word. -/
theorem decodedIsItsEncoding : Obligations.DecodedIsItsEncoding := by
  unfold Obligations.DecodedIsItsEncoding
  exact fun _ _ _ => decode_eq_op

/-- Settles O8: the accepted words are encodings; each rejected one fails the first check it does not pass. -/
theorem operationWordsDecode : Obligations.OperationWordsDecode := by
  unfold Obligations.OperationWordsDecode
  exact ⟨decodeWord_encode (i := .reqZeroDrift) rfl, decodeWord_encode (i := .reqHalt) rfl,
    decodeWord_encode (i := .regRead 464) (by decide +kernel),
    decodeWord_encode (i := .regWrite 150 0x40A00000) (by decide +kernel), rfl, rfl, rfl, rfl, by decide +kernel⟩

/-! ### The sinks' contract over a TICK (30 R134, R141; 46 R407) -/

/-- From no call of a sink: the duty sink is called at most once, because each call sets the mark that a TICK starts with
clear, and every call is admitted. -/
theorem State.Reach.sinks_contract {W : Ranges} {F : List Fault} {s t : State} (h : State.Reach W F s t)
    (hsinks : s.out.sinks = []) :
    t.out.dutyCalls ≤ 1 ∧ ∀ c ∈ t.out.sinks, SinkCall.ok (s.word 41) c = true := by
  obtain ⟨l, hl, hok, hcount⟩ := h.sinks
  rw [hsinks, List.nil_append] at hl
  have hmark := Bool.toNat_le t.tl.emitted
  rw [Outputs.dutyCalls, hl]
  exact ⟨by omega, List.all_eq_true.mp hok⟩

theorem exec_tick_next {s t : State} {fb : Feedback} (hguard : s.guardOpen = false)
    (h : exec (.tick fb) s = .next t) : t = (s.startOp.openTick.sequence fb).closeTick := by
  have hrun : exec (.tick fb) s = s.startOp.runTick fb := by simp [exec, execTick, hguard]
  exact (State.runTick_next (hrun.symm.trans h)).2

/-- Settles O21: a TICK outside a GUARD starts with no call in the outputs, and its steps keep the sinks' contract. -/
theorem tickEmitsAtMostOneDuty : Obligations.TickEmitsAtMostOneDuty := by
  unfold Obligations.TickEmitsAtMostOneDuty
  intro s t fb hsound hguard ht
  obtain rfl := exec_tick_next hguard ht
  have hstart : s.startOp.openTick.sound = true := by simpa [State.sound] using hsound
  have hsinks : s.startOp.openTick.out.sinks = [] := by simp [State.startOp_out, hguard, Outputs.none]
  simpa using (State.reach_sequence hstart fb).sinks_contract hsinks

end Sys2Proof.Machine

/-! ### Integer primitives (40 R189) -/

namespace Sys2Proof

theorem I32.toNat_low16 (v : I32) : (v.extractLsb' 0 Config.abiIncBits).toNat = v.toNat % 65536 := by
  simp [Config.abiIncBits]

/-- Widening keeps the signed value, so `sext_16` has the signed value of its low half. -/
theorem I32.toInt_sext16 (v : I32) :
    (I32.sext16 v).toInt =
      if v.toNat % 65536 < 32768 then (v.toNat % 65536 : Int) else (v.toNat % 65536 : Int) - 65536 := by
  have hwiden : (I32.sext16 v).toInt = (v.extractLsb' 0 Config.abiIncBits).toInt :=
    BitVec.toInt_signExtend_of_le (by decide)
  have hsign : 2 * (v.toNat % 65536) < 2 ^ Config.abiIncBits ↔ v.toNat % 65536 < 32768 := by
    rw [Config.abiIncBits]; omega
  rw [hwiden, BitVec.toInt_eq_toNat_cond, I32.toNat_low16]
  simp only [hsign, Int.natCast_mod]
  rfl

end Sys2Proof

namespace Sys2Proof.Machine

/-- Settles O39: the signed value of the low half for every word, and the three examples of R189 computed. -/
theorem signExtension16 : Obligations.SignExtension16 := by
  unfold Obligations.SignExtension16
  exact ⟨I32.toInt_sext16, by decide, by decide, by decide⟩

end Sys2Proof.Machine

/-!
PROOFS. The feedback stage of a TICK (spec/41_tick_feedback.md R200-R205): what intake, reconstruction and the terminal
filter leave in every register, and that the measuring steps change the record only.
-/

namespace Sys2Proof.Machine

/-! ### Steps that change the record only -/

/-- `t` differs from `s` in the record and in the count of drawn values only: no sink is called, no mark is set. -/
def State.OnlyRecord (s t : State) : Prop := t = { s with regs := t.regs, draws := t.draws }

namespace State.OnlyRecord

variable {s t u : State}

theorem refl (s : State) : s.OnlyRecord s := rfl

theorem trans (h1 : s.OnlyRecord t) (h2 : t.OnlyRecord u) : s.OnlyRecord u := by
  unfold State.OnlyRecord at *
  rw [h1] at h2
  exact h2

theorem tl (h : s.OnlyRecord t) : t.tl = s.tl := (congrArg State.tl h :)

theorem out (h : s.OnlyRecord t) : t.out = s.out := (congrArg State.out h :)

theorem bridge (h : s.OnlyRecord t) : t.bridge = s.bridge := (congrArg State.bridge h :)

theorem params (h : s.OnlyRecord t) : t.params = s.params := (congrArg State.params h :)

theorem set (h : s.OnlyRecord t) (r : Reg) (w : Word) (hl : r.kind.legal w = true := by decide) :
    s.OnlyRecord (t.set r w) :=
  h.trans (by rw [State.set_legal _ _ hl]; rfl)

/-- A register whose type admits every word. -/
theorem setAny (h : s.OnlyRecord t) (r : Reg) (w : Word) (hk : r.kind = .f32 ∨ r.kind = .i32 := by decide) :
    s.OnlyRecord (t.set r w) :=
  h.set r w (by rcases hk with hk | hk <;> rw [hk] <;> rfl)

theorem copy (h : s.OnlyRecord t) (r other : Reg) (hk : r.kind = .f32 ∨ r.kind = .i32 := by decide) :
    s.OnlyRecord (t.copy r other) := h.setAny r _ hk

theorem setF (h : s.OnlyRecord t) (r : Reg) (v : F32) (hk : r.kind = .f32 := by decide) : s.OnlyRecord (t.setF r v) := by
  unfold State.setF
  cases v.isNaN with
  | true => exact (h.setAny r _ (.inl hk)).trans rfl
  | false => exact h.setAny r v.bits (.inl hk)

theorem setFlag (h : s.OnlyRecord t) (r : Reg) (b : Bool) (hk : r.kind = .bool := by decide) :
    s.OnlyRecord (t.setFlag r b) :=
  h.set r _ (by rw [hk]; cases b <;> rfl)

theorem clear (h : s.OnlyRecord t) (l : List Reg) (hl : l.all (fun r => r.kind.legal 0) = true := by decide +kernel) :
    s.OnlyRecord (t.clear l) := by
  induction l generalizing t with
  | nil => exact h
  | cons r rs ih =>
    simp only [List.all_cons, Bool.and_eq_true] at hl
    exact ih (h.set r 0 hl.1) hl.2

theorem when (h : s.OnlyRecord t) (c : Bool) (f : State → State) (hf : ∀ u : State, u.OnlyRecord (f u)) :
    s.OnlyRecord (t.when c f) := by
  unfold State.when
  split
  · exact h.trans (hf t)
  · exact h

end State.OnlyRecord

section
variable {s : State}

theorem State.onlyRecord_intake (fb : Feedback) : s.OnlyRecord (s.intake fb) :=
  ((((State.OnlyRecord.refl s).setAny _ _).setAny _ _).setAny _ _).setAny _ _

theorem State.onlyRecord_calibrateTerminals (fb : Feedback) : s.OnlyRecord (s.calibrateTerminals fb) :=
  (((State.OnlyRecord.refl s).setF _ _).setF _ _).setF _ _

theorem State.onlyRecord_calibrate (fb : Feedback) : s.OnlyRecord (s.calibrate fb) :=
  (((((State.OnlyRecord.refl s).setF _ _).setF _ _).when _ _ (fun u => (State.OnlyRecord.refl u).setF _ _)).setF
    _ _).when _ _ (fun _ => State.onlyRecord_calibrateTerminals fb)

theorem State.onlyRecord_rebuild3 : s.OnlyRecord s.rebuild3 := by
  unfold State.rebuild3
  dsimp only
  split_ifs
  · exact (State.OnlyRecord.refl s).setF _ _
  · exact (State.OnlyRecord.refl s).setF _ _
  · exact (State.OnlyRecord.refl s).setF _ _
  · exact (State.OnlyRecord.refl s).setF _ _
  · exact .refl s

theorem State.onlyRecord_rebuild2 : s.OnlyRecord s.rebuild2 := by
  unfold State.rebuild2
  split_ifs
  · exact (State.OnlyRecord.refl s).setF _ _
  · exact .refl s

theorem State.onlyRecord_rebuild (old : State) : s.OnlyRecord (s.rebuild old) := by
  unfold State.rebuild
  split_ifs
  · exact (((State.OnlyRecord.refl s).setAny _ _).setAny _ _).setAny _ _
  · exact State.onlyRecord_rebuild3
  · exact State.onlyRecord_rebuild2

theorem State.onlyRecord_clarkeCurrents : s.OnlyRecord s.clarkeCurrents := by
  unfold State.clarkeCurrents
  split_ifs
  · exact ((State.OnlyRecord.refl s).setF _ _).setF _ _
  · exact ((State.OnlyRecord.refl s).copy _ _).copy _ _

theorem State.onlyRecord_measure (fb : Feedback) : s.OnlyRecord (s.measure fb) :=
  ((State.onlyRecord_intake fb).trans (State.onlyRecord_calibrate fb)).trans
    ((State.onlyRecord_rebuild s).trans State.onlyRecord_clarkeCurrents)

theorem State.onlyRecord_tvmPhase (out u : Reg) (taps : Nat → Reg) (p : Nat) (ho : out.kind = .f32) :
    s.OnlyRecord (s.tvmPhase out u taps p) :=
  (((State.OnlyRecord.refl s).when _ _ (fun v => (State.OnlyRecord.refl v).setF _ _ ho)).copy (Reg.tvmPast p 1) _
    (.inl rfl)).copy (Reg.tvmPast p 0) _ (.inl rfl)

theorem State.onlyRecord_tvmClarke : s.OnlyRecord s.tvmClarke := by
  unfold State.tvmClarke
  split_ifs
  · exact ((State.OnlyRecord.refl s).setF _ _).setF _ _
  · exact ((State.OnlyRecord.refl s).setF _ _).setF _ _

theorem State.onlyRecord_tvmFilter : s.OnlyRecord s.tvmFilter := by
  unfold State.tvmFilter
  split_ifs
  · exact (((((State.OnlyRecord.refl s).setFlag _ _).trans (State.onlyRecord_tvmPhase _ _ _ 0 rfl)).trans
      (State.onlyRecord_tvmPhase _ _ _ 1 rfl)).trans (State.onlyRecord_tvmPhase _ _ _ 2 rfl)).when _ _
        (fun _ => State.onlyRecord_tvmClarke)
  · exact (State.OnlyRecord.refl s).setFlag _ _

end

/-! ### The word of every register after a write -/

section
variable {s : State}

theorem State.wf_of_sound (h : s.sound = true) : s.regs.wf = true := (s.sound_iff.mp h).1

/-- A legal value in another register than `fsm_state`, whose write also zeroes `fsm_phase`. -/
theorem State.word_setLegal (h : s.regs.wf = true) {r : Reg} {w : Word} (hl : r.kind.legal w = true) (hr : r.num ≠ 464)
    (n : Nat) : (s.set r w).word n = if n = r.num then w else s.word n := by
  rw [State.word_set h hl]
  simp [hr]

/-- A register whose type admits every word. -/
theorem State.word_setAny (h : s.regs.wf = true) (r : Reg) (w : Word) (n : Nat) (hk : r.kind = .f32 ∨ r.kind = .i32)
    (hr : r.num ≠ 464) : (s.set r w).word n = if n = r.num then w else s.word n :=
  State.word_setLegal h (by rcases hk with hk | hk <;> rw [hk] <;> rfl) hr n

theorem State.word_copy (h : s.regs.wf = true) (r other : Reg) (n : Nat) (hk : r.kind = .f32 ∨ r.kind = .i32)
    (hr : r.num ≠ 464) : (s.copy r other).word n = if n = r.num then s.word other.num else s.word n :=
  State.word_setAny h r _ n hk hr

theorem State.word_setF_ne {r : Reg} (v : F32) {n : Nat} (hn : n ≠ r.num) (hr : r.num ≠ 464) :
    (s.setF r v).word n = s.word n := by
  unfold State.setF
  cases v.isNaN with
  | true => exact State.word_set_other hn (fun h => absurd h hr)
  | false => exact State.word_set_other hn (fun h => absurd h hr)

end

/-! ### Intake (41 R201) -/

/-- Settles O36: each of the four moves writes the register of its own word, and no other. -/
theorem intakeStoresAsDelivered : Obligations.IntakeStoresAsDelivered := by
  unfold Obligations.IntakeStoresAsDelivered
  intro s fb hsound
  have hwf := State.wf_of_sound hsound
  have h1 := State.wf_set hwf Reg.fb_HS fb.hall
  have h2 := State.wf_set h1 Reg.fb_EP fb.eabi
  have h3 := State.wf_set h2 Reg.fb_SIN fb.sine.bits
  have hword : ∀ n, (s.intake fb).word n = if n = 266 then fb.cosine.bits else if n = 265 then fb.sine.bits
      else if n = 264 then fb.eabi else if n = 263 then fb.hall else s.word n := fun n => by
    rw [State.intake, State.word_setAny h3 _ _ _ (by decide) (by decide),
      State.word_setAny h2 _ _ _ (by decide) (by decide), State.word_setAny h1 _ _ _ (by decide) (by decide),
      State.word_setAny hwf _ _ _ (by decide) (by decide)]
  refine ⟨by simp [hword], by simp [hword], by simp [hword], by simp [hword], ?_, fun n hn => ?_⟩
  · exact State.onlyRegs_trans (State.onlyRegs_trans (State.onlyRegs_trans (State.onlyRegs_set _ rfl)
      (State.onlyRegs_set _ rfl)) (State.onlyRegs_set _ rfl)) (State.onlyRegs_set _ rfl)
  · simp only [List.mem_cons, List.not_mem_nil, or_false, not_or] at hn
    obtain ⟨h1, h2, h3, h4⟩ := hn
    rw [hword, if_neg h4, if_neg h3, if_neg h2, if_neg h1]

/-! ### The whole TICK's frame (41 R200, 48 R481) -/

/-- Settles O20: what steps S1 to S9 can do, from the state in which the TICK has started. -/
theorem tickFrame : Obligations.TickFrame := by
  unfold Obligations.TickFrame
  intro s t fb hsound hguard ht
  obtain rfl := exec_tick_next hguard ht
  have hreach := State.reach_sequence (s := s.startOp.openTick) (by simpa [State.sound] using hsound) fb
  exact ⟨by simpa [State.agreesOff] using hreach.word, by simpa using hreach.params, by simpa using hreach.tick, rfl,
    by simpa using hreach.inbox, by simpa [hguard] using hreach.guardOpen, by simpa using hreach.refusals,
    by simpa [State.startOp_out, hguard, Outputs.none] using hreach.responses,
    by simpa [State.startOp_out, hguard, Outputs.none] using hreach.refused⟩

/-! ### Reconstruction (41 R203) -/

section
variable {s : State}

/-- A computed phase current: its register, when it is a number, and the frame. -/
theorem State.setF_stores (hwf : s.regs.wf = true) (k : Nat) (hk : k ≠ 464) (v : F32) :
    (v.isNaN = false → (s.setF ⟨k, .f32⟩ v).word k = v.bits) ∧ State.agreesOff [(k, k)] s (s.setF ⟨k, .f32⟩ v) := by
  refine ⟨fun hv => by rw [State.word_setF hwf k k hv, if_pos rfl], fun n hn => State.word_setF_ne v ?_ hk⟩
  rw [Ranges.has_cons_false] at hn
  change n ≠ k
  omega

theorem State.word_keepCurrents (hwf : s.regs.wf = true) (old : State) (n : Nat) :
    (s.keepCurrents old).word n = if n = 258 then old.word 258 else if n = 257 then old.word 257 else if n = 256 then
      old.word 256 else s.word n := by
  have h1 := State.wf_set hwf Reg.fb_iA (old.word 256)
  have h2 := State.wf_set h1 Reg.fb_iB (old.word 257)
  rw [State.keepCurrents, State.word_setAny h2 _ _ _ (by decide) (by decide),
    State.word_setAny h1 _ _ _ (by decide) (by decide), State.word_setAny hwf _ _ _ (by decide) (by decide)]

/-- With two sensors C is rebuilt in either topology. -/
theorem State.rebuild_two (old : State) (h : s.threeSensors = false) :
    s.rebuild old = s.setF Reg.fb_iC (s.minusSum Reg.fb_iA Reg.fb_iB) := by
  simp [State.rebuild, State.fewValid, State.rebuild3, State.rebuild2, h]

/-- With three sensors the samples' flags decide, and for one invalid sample the topology. -/
theorem State.rebuild_three (old : State) (h : s.threeSensors = true) {x y z : Word}
    (hv : (s.word 292, s.word 293, s.word 294) = (x, y, z)) :
    s.rebuild old =
      if !((x == 1 && y == 1) || (y == 1 && z == 1) || (x == 1 && z == 1)) then s.keepCurrents old
      else if !(z == 1) then s.setF Reg.fb_iC (s.minusSum Reg.fb_iA Reg.fb_iB)
      else if s.threePhase then
        if !(x == 1) then s.setF Reg.fb_iA (s.minusSum Reg.fb_iB Reg.fb_iC)
        else if !(y == 1) then s.setF Reg.fb_iB (s.minusSum Reg.fb_iA Reg.fb_iC)
        else s
      else s := by
  have ha : s.flag (Reg.vsi_IF 0) = (x == 1) := by cases hv; rfl
  have hb : s.flag (Reg.vsi_IF 1) = (y == 1) := by cases hv; rfl
  have hc : s.flag (Reg.vsi_IF 2) = (z == 1) := by cases hv; rfl
  simp only [State.rebuild, State.fewValid, State.rebuild3, State.rebuild2, h, ha, hb, hc]
  generalize (x == 1) = a, (y == 1) = b, (z == 1) = c
  cases a <;> cases b <;> cases c <;> simp

end

/-- Settles O37: the number of valid samples decides whether the previous currents are kept, and else the topology and
the flags name the one phase that is rebuilt. -/
theorem missingPhaseRebuilt : Obligations.MissingPhaseRebuilt := by
  unfold Obligations.MissingPhaseRebuilt
  intro s old hsound
  have hwf := State.wf_of_sound hsound
  refine ⟨rfl, fun htwo => ?_, fun hthree => ?_⟩
  · have hsensors : s.threeSensors = false := by rcases htwo with h | h <;> simp [State.threeSensors, h]
    rw [State.rebuild_two old hsensors]
    exact State.setF_stores hwf 258 (by decide) _
  have hsensors : s.threeSensors = true := by rcases hthree with h | h <;> simp [State.threeSensors, h]
  have hthreePhase : s.word 0 = 0 → s.threePhase = true := fun h => by simp [State.threePhase, h]
  have htwoPhase : s.word 0 = 1 → s.threePhase = false := fun h => by simp [State.threePhase, h]
  refine ⟨fun hv => ⟨fun h0 => ?_, fun h1 => ?_⟩, fun hv => ⟨fun h0 => ?_, fun h1 => ?_⟩, fun hv => ?_, fun hv => ?_,
    fun hv => ?_⟩
  · rw [State.rebuild_three old hsensors hv, hthreePhase h0]
    exact State.setF_stores hwf 256 (by decide) _
  · rw [State.rebuild_three old hsensors hv, htwoPhase h1]
    rfl
  · rw [State.rebuild_three old hsensors hv, hthreePhase h0]
    exact State.setF_stores hwf 257 (by decide) _
  · rw [State.rebuild_three old hsensors hv, htwoPhase h1]
    rfl
  · rw [State.rebuild_three old hsensors hv]
    exact State.setF_stores hwf 258 (by decide) _
  · rw [State.rebuild_three old hsensors hv]
    cases s.threePhase <;> rfl
  · have hkeep : s.rebuild old = s.keepCurrents old := by
      simp only [List.mem_cons, List.not_mem_nil, or_false] at hv
      rcases hv with hv | hv | hv | hv <;> exact State.rebuild_three old hsensors hv
    rw [hkeep]
    refine ⟨fun n hn => ?_, fun n hn => ?_⟩
    · rw [State.word_keepCurrents hwf]
      simp only [List.mem_cons, List.not_mem_nil, or_false] at hn
      rcases hn with rfl | rfl | rfl <;> rfl
    · rw [Ranges.has_cons_false] at hn
      rw [State.word_keepCurrents hwf, if_neg (by omega), if_neg (by omega), if_neg (by omega)]

/-! ### The terminal-voltage filter (41 R205) -/

section
variable {s : State}

theorem State.wf_when (hwf : s.regs.wf = true) (c : Bool) (f : State → State)
    (hf : (f s).regs.wf = true) : (s.when c f).regs.wf = true := by
  unfold State.when
  split
  · exact hf
  · exact hwf

theorem State.word_when {c : Bool} {f : State → State} {n : Nat} (h : c = true → (f s).word n = s.word n) :
    (s.when c f).word n = s.word n := by
  unfold State.when
  split
  · exact h ‹_›
  · rfl

/-- The taps of one phase: the average, then the history shifted by one. -/
theorem State.tvmPhase_eq (out u : Reg) (taps : Nat → Reg) (p : Nat) :
    s.tvmPhase out u taps p = ((s.when (s.flag Reg.tvm_valid) (fun t => t.setF out (s.tvmAverage u taps p))).copy
      (Reg.tvm_hist (2 * p + 1)) (Reg.tvm_hist (2 * p))).copy (Reg.tvm_hist (2 * p)) u := rfl

/-- One phase `p` of a filter whose samples are clean or not: the sample register `u` goes into the history, which shifts
by one; of the other registers only the average `out` can change, and only with clean samples. -/
structure State.TvmShifted (clean : Bool) (out u : Reg) (p : Nat) (s t : State) : Prop where
  wf : t.regs.wf = true
  valid : t.flag Reg.tvm_valid = clean
  word : ∀ n, n ≠ out.num ∨ clean = false → t.word n =
    if n = 277 + 2 * p then s.word u.num else if n = 278 + 2 * p then s.word (277 + 2 * p) else s.word n

theorem State.tvmPhase_shifts (hwf : s.regs.wf = true) {clean : Bool} (hvalid : s.flag Reg.tvm_valid = clean)
    (out u : Reg) (taps : Nat → Reg) (p : Nat)
    (hregs : p < 3 ∧ u.num < 271 ∧ 271 ≤ out.num ∧ out.num < 276 := by decide) :
    State.TvmShifted clean out u p s (s.tvmPhase out u taps p) := by
  obtain ⟨hp, hu, hout, hout'⟩ := hregs
  have h0 : (Reg.tvm_hist (2 * p)).num = 277 + 2 * p := rfl
  have h1 : (Reg.tvm_hist (2 * p + 1)).num = 278 + 2 * p := by change 277 + (2 * p + 1) = _; omega
  rw [State.tvmPhase_eq, hvalid]
  generalize ht : s.when clean (fun t => t.setF out (s.tvmAverage u taps p)) = t
  have hwft : t.regs.wf = true := ht ▸ State.wf_when hwf _ _ (State.wf_setF hwf _ _)
  have haverage : ∀ m, m ≠ out.num ∨ clean = false → t.word m = s.word m := fun m hm =>
    ht ▸ State.word_when fun hv => State.word_setF_ne _ (hm.resolve_right (by simp [hv])) (by omega)
  have hword : ∀ n, n ≠ out.num ∨ clean = false →
      ((t.copy (Reg.tvm_hist (2 * p + 1)) (Reg.tvm_hist (2 * p))).copy (Reg.tvm_hist (2 * p)) u).word n =
        if n = 277 + 2 * p then s.word u.num else if n = 278 + 2 * p then s.word (277 + 2 * p) else s.word n := by
    intro n hn
    rw [State.word_copy (State.wf_copy hwft _ _) _ _ _ (.inl rfl) (by omega),
      State.word_copy hwft _ _ _ (.inl rfl) (by omega), State.word_copy hwft _ _ _ (.inl rfl) (by omega), h0, h1,
      if_neg (by omega : u.num ≠ 278 + 2 * p), haverage n hn, haverage u.num (.inl (by omega)),
      haverage (277 + 2 * p) (.inl (by omega))]
  refine ⟨State.wf_copy (State.wf_copy hwft _ _) _ _, ?_, hword⟩
  rw [← hvalid]
  unfold State.flag
  rw [hword 276 (.inl (by omega)), if_neg (by omega), if_neg (by omega)]

theorem State.word_tvmClarke_ne {n : Nat} (h1 : n ≠ 274) (h2 : n ≠ 275) : s.tvmClarke.word n = s.word n := by
  unfold State.tvmClarke
  split_ifs
  · rw [State.word_setF_ne _ h2 (by decide), State.word_setF_ne _ h1 (by decide)]
  · rw [State.word_setF_ne _ h2 (by decide), State.word_setF_ne _ h1 (by decide)]

/-- The filter with TVM: the validity and the histories. The averages and the vector of a tick with clean samples are
left out. -/
theorem State.word_tvmRun (hwf : s.regs.wf = true) {n : Nat} (hn : n < 271 ∨ 275 < n ∨ s.tvmClean = false) :
    s.tvmRun.word n =
      if n = 281 then s.word 262 else if n = 282 then s.word 281
      else if n = 279 then s.word 261 else if n = 280 then s.word 279
      else if n = 277 then s.word 260 else if n = 278 then s.word 277
      else if n = 276 then Flag.word s.tvmClean else s.word n := by
  have hout : ∀ m, 271 ≤ m → m ≤ 275 → n ≠ m ∨ s.tvmClean = false := fun m h1 h2 => by
    rcases hn with hn | hn | hn
    · exact .inl (by omega)
    · exact .inl (by omega)
    · exact .inr hn
  have hclarke : ∀ t : State, (t.when s.tvmClean (·.tvmClarke)).word n = t.word n := fun t =>
    State.word_when fun hv => State.word_tvmClarke_ne ((hout 274 (by decide) (by decide)).resolve_right (by simp [hv]))
      ((hout 275 (by decide) (by decide)).resolve_right (by simp [hv]))
  rw [State.tvmRun, hclarke]
  generalize hs0 : s.setFlag Reg.tvm_valid s.tvmClean = s0
  have hwf0 : s0.regs.wf = true := hs0 ▸ State.wf_setFlag hwf _ _
  have hword0 : ∀ m, s0.word m = if m = 276 then Flag.word s.tvmClean else s.word m := fun m => by
    rw [← hs0]; simpa using State.word_setFlag hwf 276 m s.tvmClean
  have hvalid0 : s0.flag Reg.tvm_valid = s.tvmClean := by
    unfold State.flag; rw [hword0]; cases s.tvmClean <;> rfl
  have hA := State.tvmPhase_shifts hwf0 hvalid0 Reg.tvm_A Reg.fb_uA Reg.tvm_FIR_A 0
  have hB := State.tvmPhase_shifts hA.wf hA.valid Reg.tvm_B Reg.fb_uB Reg.tvm_FIR_B 1
  have hC := State.tvmPhase_shifts hB.wf hB.valid Reg.tvm_C Reg.fb_uC Reg.tvm_FIR_C 2
  rw [hC.word n (hout 273 (by decide) (by decide)), hB.word n (hout 272 (by decide) (by decide)),
    hA.word n (hout 271 (by decide) (by decide)), hword0]
  simp [hB.word, hA.word, hword0]

end

/-- Settles O38: the histories shift whatever the flags, and a tick whose samples were not clean writes no average. -/
theorem terminalFilterShifts : Obligations.TerminalFilterShifts := by
  unfold Obligations.TerminalFilterShifts
  intro s hsound
  have hwf := State.wf_of_sound hsound
  refine ⟨fun h0 => ?_, fun h1 => ?_⟩
  · have hfilter : s.tvmFilter = s.setFlag Reg.tvm_valid false := by simp [State.tvmFilter, State.flag, h0]
    rw [hfilter]
    exact ⟨by rw [State.word_setFlag hwf]; rfl, fun n hn => State.word_set_other hn nofun⟩
  · have hfilter : s.tvmFilter = s.tvmRun := by simp [State.tvmFilter, State.flag, h1]
    rw [hfilter]
    have hclean : Flag.word s.tvmClean = if s.word 295 = 1 ∧ s.word 296 = 1 ∧ s.word 297 = 1 then 1 else 0 := by
      simp [Flag.word, State.tvmClean, State.flag, and_assoc]
    have hvalid : s.tvmRun.word 276 = Flag.word s.tvmClean := State.word_tvmRun hwf (.inr (.inl (by decide)))
    refine ⟨hvalid.trans hclean, fun p hp => ?_, State.word_tvmRun hwf (.inr (.inl (by decide))),
      State.word_tvmRun hwf (.inr (.inl (by decide))), State.word_tvmRun hwf (.inr (.inl (by decide))),
      fun hbad r hr => ?_⟩
    · rw [State.word_tvmRun hwf (.inr (.inl (by change 275 < 277 + _; omega)))]
      match p, hp with
      | 0, _ => rfl
      | 1, _ => rfl
      | 2, _ => rfl
    · have hdirty : s.tvmClean = false := by
        rw [hvalid] at hbad
        cases hc : s.tvmClean with
        | false => rfl
        | true => rw [hc] at hbad; exact absurd hbad (by decide)
      rw [State.word_tvmRun hwf (.inr (.inr hdirty))]
      simp only [List.mem_cons, List.not_mem_nil, or_false] at hr
      rcases hr with rfl | rfl | rfl | rfl | rfl <;> rfl

end Sys2Proof.Machine

/-!
PROOFS. Whole TICKs in which nothing drives the motor (spec/41_tick_feedback.md R200, R204, R207, R208): what an
electrical fault does in its own tick and in the next (spec/60_exceptions.md R500, R502), what HALT's first tick leaves
(spec/47_command_fsm.md R449), and that a TICK completes when no voltage is issued.
-/

namespace Sys2Proof.Machine

/-! ### Raising a fault (60 R500) -/

section
variable {s : State}

theorem State.errno_recordErrno (hwf : s.regs.wf = true) (e : Errno) :
    (s.recordErrno e).word 467 = if s.word 467 = 0 ∨ s.haltUnderway = false then e.code else s.word 467 := by
  unfold State.recordErrno
  change (if s.word 467 = 0 ∨ s.haltUnderway = false then _ else _ : State).word 467 = _
  split
  · exact State.word_set_same (r := Reg.fsm_errno) hwf (Errno.code_legal e)
  · rfl

theorem State.word_recordErrno_ne (e : Errno) {n : Nat} (hn : n ≠ 467) : (s.recordErrno e).word n = s.word n := by
  unfold State.recordErrno
  split
  · exact State.word_set_other hn nofun
  · rfl

theorem State.onlyRecord_recordErrno (e : Errno) : s.OnlyRecord (s.recordErrno e) := by
  unfold State.recordErrno
  split
  · exact (State.OnlyRecord.refl s).set _ _ (Errno.code_legal e)
  · exact .refl s

/-- With `HALT_SAME_TICK` true, or in a step after S5, the HALT request goes to its slot. -/
theorem State.raise_now (e : Errno) {early : Bool} (h : s.params.haltSameTick = true ∨ early = false) :
    s.raise e early = (s.recordErrno e).set Reg.fsm_req FsmState.halt.code := by
  rcases h with h | h <;> simp [State.raise, h]

/-- With `HALT_SAME_TICK` false the HALT request of steps S1 to S5 is a mark of the tick. -/
theorem State.raise_late (e : Errno) (h : s.params.haltSameTick = false) :
    s.raise e true = { s.recordErrno e with tl := { (s.recordErrno e).tl with faultLatch := true } } := by
  simp [State.raise, h]

theorem State.errno_raise (hwf : s.regs.wf = true) (e : Errno) (early : Bool) :
    (s.raise e early).word 467 = if s.word 467 = 0 ∨ s.haltUnderway = false then e.code else s.word 467 := by
  rw [← State.errno_recordErrno hwf]
  unfold State.raise
  split
  · rfl
  · exact State.word_set_other (by decide) nofun

theorem State.onlyRecord_raise_now (e : Errno) {early : Bool} (h : s.params.haltSameTick = true ∨ early = false) :
    s.OnlyRecord (s.raise e early) := by
  rw [State.raise_now e h]
  exact (State.onlyRecord_recordErrno e).set _ _ (FsmState.code_legal .halt)

/-- A standing fault is kept while its HALT is underway. -/
theorem State.recordErrno_underway (e : Errno) (herrno : s.word 467 ≠ 0) (h : s.haltUnderway = true) :
    s.recordErrno e = s :=
  if_neg (by rintro (hc | hc); exacts [herrno hc, absurd (h.symm.trans hc) (by decide)])

/-- The HALT request of a fault stands in its slot. -/
theorem State.request_raise_now (hs : s.sound = true) (e : Errno) {early : Bool}
    (h : s.params.haltSameTick = true ∨ early = false) : (s.raise e early).word 466 = FsmState.halt.code := by
  rw [State.raise_now e h]
  exact State.word_set_same (r := Reg.fsm_req) (State.wf_of_sound ((State.reach_recordErrno e).sound hs))
    (FsmState.code_legal .halt)

/-- The first fault of steps S1 to S5 wins (60 R502): a second one, raised at the same point, changes nothing. -/
theorem State.raise_raise (hs : s.sound = true) {e : Errno} (he : e.code ≠ 0) (e' : Errno) :
    (s.raise e true).raise e' true = s.raise e true := by
  have hparams : (s.raise e true).params = s.params := (State.reach_raise e true).params
  have herrno : (s.raise e true).word 467 ≠ 0 := by
    rw [State.errno_raise (State.wf_of_sound hs)]
    split
    · exact he
    · rename_i hkept
      exact fun hc => hkept (.inl hc)
  cases hsame : s.params.haltSameTick with
  | false =>
    have hunderway : (s.raise e true).haltUnderway = true := by simp [State.haltUnderway, State.raise_late e hsame]
    rw [State.raise_late e' (by rwa [hparams]), State.recordErrno_underway e' herrno hunderway, State.raise_late e hsame]
  | true =>
    have hunderway : (s.raise e true).haltUnderway = true := by
      simp [State.haltUnderway, State.request_raise_now hs e (.inl hsame)]
    rw [State.raise_now e' (.inl (by rwa [hparams])), State.recordErrno_underway e' herrno hunderway,
      State.raise_now e (.inl hsame), State.set_legal _ _ (FsmState.code_legal .halt),
      State.set_legal _ _ (FsmState.code_legal .halt)]
    exact State.store_store (State.wf_of_sound ((State.reach_recordErrno e).sound hs)) _ _

/-! ### The electrical fault check (41 R204) -/

theorem State.faultCheck_none (hc : s.overCurrent = false) (hv : s.overVoltage = false) : s.faultCheck = s := by
  simp [State.faultCheck, State.when, hc, hv]

/-- A check that trips raises one fault: the over-current's when both trip. -/
theorem State.faultCheck_fault (hs : s.sound = true) (h : s.overCurrent = true ∨ s.overVoltage = true) :
    s.faultCheck = s.raise s.electricalFault true := by
  unfold State.faultCheck State.electricalFault
  cases hc : s.overCurrent with
  | false => simp [State.when, h.resolve_left (by simp [hc])]
  | true =>
    cases s.overVoltage with
    | false => rfl
    | true => exact State.raise_raise hs (by decide) _

end

/-! ### The measured state of a TICK (41 R200, S1 to S3) -/

section
variable {s : State}

theorem State.sound_start (h : s.sound = true) : s.startOp.openTick.sound = true := by simpa [State.sound] using h

theorem State.reach_measured (s : State) (fb : Feedback) :
    State.Reach feedbackRegs [] s.startOp.openTick (s.measured fb) := State.reach_measure fb

theorem State.onlyRecord_measured (s : State) (fb : Feedback) : s.startOp.openTick.OnlyRecord (s.measured fb) :=
  State.onlyRecord_measure fb

theorem State.measured_sound (h : s.sound = true) (fb : Feedback) : (s.measured fb).sound = true :=
  (s.reach_measured fb).sound (State.sound_start h)

theorem State.measured_word (s : State) (fb : Feedback) {n : Nat} (hn : feedbackRegs.has n = false) :
    (s.measured fb).word n = s.word n :=
  ((s.reach_measured fb).word n hn).trans (s.startOp_word n)

theorem State.measured_tl (s : State) (fb : Feedback) : (s.measured fb).tl = TickLocal.none :=
  (s.onlyRecord_measured fb).tl

theorem State.measured_bridge (s : State) (fb : Feedback) : (s.measured fb).bridge = s.bridge :=
  (s.onlyRecord_measured fb).bridge.trans s.startOp_bridge

theorem State.measured_params (s : State) (fb : Feedback) : (s.measured fb).params = s.params :=
  (s.onlyRecord_measured fb).params.trans s.startOp_params

theorem State.measured_out (hguard : s.guardOpen = false) (fb : Feedback) : (s.measured fb).out = Outputs.none :=
  (s.onlyRecord_measured fb).out.trans (by simp [State.startOp_out, hguard])

/-- A TICK outside a GUARD that reaches no `UNMODELLED` condition completes. -/
theorem exec_tick_completes (hguard : s.guardOpen = false) (fb : Feedback)
    (hruns : (s.startOp.openTick.sequence fb).tl.unmodelled = none) :
    exec (.tick fb) s = .next (s.startOp.openTick.sequence fb).closeTick := by
  simp [exec, execTick, hguard, State.runTick, State.endTick, hruns]

theorem State.sequence_start (s : State) (fb : Feedback) : s.startOp.openTick.sequence fb =
    (s.measured fb).faultCheck.tvmFilter.fsmStep.lookupPart.postponedPart.deferredPart := rfl

end

/-! ### Steps that have nothing to do -/

section
variable {s : State}

theorem State.consumeRequest_none (h : s.word 466 = 0) : s.consumeRequest = s := if_pos h

theorem State.runState_idle (h : s.word 464 = 0) : s.runState = s := by
  rw [State.runState, show s.word Reg.fsm_state.num = FsmState.idle.code from h, FsmState.ofWord_code]

/-- IDLE without a request (47 R432). -/
theorem State.fsmStep_idle (hstate : s.word 464 = 0) (hreq : s.word 466 = 0) : s.fsmStep = s := by
  rw [State.fsmStep, State.consumeRequest_none hreq, State.runState_idle hstate]

theorem State.lookupPart_disabled (h : s.word 320 = 0) : s.lookupPart = s :=
  if_pos (by simp [State.modeIs, h, LuMode.code])

theorem State.postponedPart_none (h : s.word 389 = 0) : s.postponedPart = s :=
  if_neg (by simp [State.flag, h])

theorem State.deferredPart_unmarked (h : s.tl.faultLatch = false) : s.deferredPart = s := by
  unfold State.deferredPart State.when State.applyDeferred
  simp [h]

theorem State.deferredPart_sameTick (h : s.params.haltSameTick = true) : s.deferredPart = s :=
  if_neg (by simp [h])

/-- S9 with the mark of a fault (60 R500). -/
theorem State.deferredPart_marked (h : s.params.haltSameTick = false) (hlatch : s.tl.faultLatch = true) :
    s.deferredPart = s.set Reg.fsm_req FsmState.halt.code := by
  simp [State.deferredPart, State.when, State.applyDeferred, h, hlatch]

/-- S6 to S8 with the FSM in IDLE, no request, the lookup FSM DISABLED and no EKF step postponed. -/
theorem State.steps6to8_idle (hstate : s.word 464 = 0) (hreq : s.word 466 = 0) (hmode : s.word 320 = 0)
    (hpending : s.word 389 = 0) : s.fsmStep.lookupPart.postponedPart = s := by
  rw [State.fsmStep_idle hstate hreq, State.lookupPart_disabled hmode, State.postponedPart_none hpending]

end

/-- Settles O23: without a fault S4 does nothing, and in IDLE with nothing enabled neither do S6 to S9. -/
theorem idleTickOnlyMeasures : Obligations.IdleTickOnlyMeasures := by
  unfold Obligations.IdleTickOnlyMeasures
  intro s fb hinv hstate hreq hmode hpending hfree
  obtain ⟨hsound, -, hguard, -, -⟩ := s.inv_iff.mp hinv
  obtain ⟨hcurrent, hvoltage⟩ : (s.measured fb).overCurrent = false ∧ (s.measured fb).overVoltage = false := by
    simpa [State.faultFree] using hfree
  have hrecord : (s.measured fb).OnlyRecord (s.measured fb).tvmFilter := State.onlyRecord_tvmFilter
  have hword : ∀ n, feedbackRegs.has n = false → (s.measured fb).tvmFilter.word n = s.word n := fun n hn =>
    (State.reach_tvmFilter.word n hn).trans (s.measured_word fb hn)
  have htl : (s.measured fb).tvmFilter.tl = TickLocal.none := hrecord.tl.trans (s.measured_tl fb)
  have hsequence : s.startOp.openTick.sequence fb = (s.measured fb).tvmFilter := by
    rw [State.sequence_start, State.faultCheck_none hcurrent hvoltage,
      State.steps6to8_idle ((hword 464 (by decide)).trans hstate) ((hword 466 (by decide)).trans hreq)
        ((hword 320 (by decide)).trans hmode) ((hword 389 (by decide)).trans hpending),
      State.deferredPart_unmarked (congrArg TickLocal.faultLatch htl)]
  refine ⟨(s.measured fb).tvmFilter.closeTick, ?_, rfl, ?_, ?_, fun n hn => ?_⟩
  · rw [exec_tick_completes hguard fb (by rw [hsequence, htl]; rfl), hsequence]
  · rw [State.closeTick_out, hrecord.out, State.measured_out hguard]
  · rw [State.closeTick_bridge, hrecord.bridge, State.measured_bridge]
  · rw [State.closeTick_word, hword n hn]

/-! ### The electrical faults (41 R204, 60 R500) -/

section
variable {s : State}

/-- The mark of a fault raised in S4 that waits for S9. -/
theorem State.raise_late_tl (e : Errno) (h : s.params.haltSameTick = false) :
    (s.raise e true).tl = { s.tl with faultLatch := true } := by
  rw [State.raise_late e h, (State.onlyRecord_recordErrno e).tl]

theorem State.raise_late_out (e : Errno) (h : s.params.haltSameTick = false) : (s.raise e true).out = s.out := by
  rw [State.raise_late e h]
  exact (State.onlyRecord_recordErrno e).out

theorem State.word_raise_late (e : Errno) (h : s.params.haltSameTick = false) {n : Nat} (hn : n ≠ 467) :
    (s.raise e true).word n = s.word n := by
  rw [State.raise_late e h]
  exact State.word_recordErrno_ne e hn

/-- Outside HALT and before any fault of this tick, a HALT is underway when it is requested. -/
theorem State.haltUnderway_eq_false_iff (hstate : s.word 464 ≠ FsmState.halt.code) (hlatch : s.tl.faultLatch = false) :
    s.haltUnderway = false ↔ s.word 466 ≠ FsmState.halt.code := by
  simp [State.haltUnderway, hstate, hlatch]

/-- What S4 and S5 leave of a fault that waits for S9: the fault code, and nothing else outside the feedback
registers. -/
theorem State.word_faultLate (e : Errno) (h : s.params.haltSameTick = false) {n : Nat} (hn : feedbackRegs.has n = false)
    (h467 : n ≠ 467) : (s.raise e true).tvmFilter.word n = s.word n :=
  (State.reach_tvmFilter.word n hn).trans (State.word_raise_late e h h467)

theorem State.faultLate_tl (e : Errno) (h : s.params.haltSameTick = false) :
    (s.raise e true).tvmFilter.tl = { s.tl with faultLatch := true } :=
  State.onlyRecord_tvmFilter.tl.trans (State.raise_late_tl e h)

theorem State.faultLate_out (e : Errno) (h : s.params.haltSameTick = false) : (s.raise e true).tvmFilter.out = s.out :=
  State.onlyRecord_tvmFilter.out.trans (State.raise_late_out e h)

/-- S4 to S9 with an electrical fault and nothing enabled, `HALT_SAME_TICK` being false: S6 to S8 do nothing, and S9
moves the mark to the request slot. -/
theorem State.steps4to9_faultLate (hsound : s.sound = true) (hlate : s.params.haltSameTick = false)
    (hstate : s.word 464 = 0) (hreq : s.word 466 = 0) (hmode : s.word 320 = 0) (hpending : s.word 389 = 0)
    (hfault : s.overCurrent = true ∨ s.overVoltage = true) :
    s.faultCheck.tvmFilter.fsmStep.lookupPart.postponedPart.deferredPart =
      (s.raise s.electricalFault true).tvmFilter.set Reg.fsm_req FsmState.halt.code := by
  have hword : ∀ n, feedbackRegs.has n = false → n ≠ 467 →
      (s.raise s.electricalFault true).tvmFilter.word n = s.word n := fun n => State.word_faultLate _ hlate
  rw [State.faultCheck_fault hsound hfault, State.steps6to8_idle ((hword 464 (by decide) (by decide)).trans hstate)
    ((hword 466 (by decide) (by decide)).trans hreq) ((hword 320 (by decide) (by decide)).trans hmode)
    ((hword 389 (by decide) (by decide)).trans hpending)]
  refine State.deferredPart_marked ?_ ?_
  · rw [State.onlyRecord_tvmFilter.params, (State.reach_raise _ _).params, hlate]
  · rw [State.faultLate_tl _ hlate]

/-- The slot and the fault code after S9. -/
theorem State.faultLate_outcome (hsound : s.sound = true) (hlate : s.params.haltSameTick = false) (e : Errno)
    (hunderway : s.haltUnderway = false) {t : State}
    (ht : t = (s.raise e true).tvmFilter.set Reg.fsm_req FsmState.halt.code) :
    t.word 464 = s.word 464 ∧ t.word 466 = FsmState.halt.code ∧ t.word 467 = e.code ∧ t.out = s.out ∧
      t.tl = { s.tl with faultLatch := true } := by
  have hfilter : State.Reach feedbackRegs [] (s.raise e true) (s.raise e true).tvmFilter := State.reach_tvmFilter
  have hwf := State.wf_of_sound (hfilter.sound ((State.reach_raise _ _).sound hsound))
  have hother : ∀ n, n ≠ 466 → t.word n = (s.raise e true).tvmFilter.word n := fun n hn =>
    ht ▸ State.word_set_other hn nofun
  have hrecord : (s.raise e true).tvmFilter.OnlyRecord t := ht ▸ (State.OnlyRecord.refl _).set _ _
  refine ⟨?_, ht ▸ State.word_set_same (r := Reg.fsm_req) hwf (by decide), ?_, ?_, ?_⟩
  · rw [hother 464 (by decide), State.word_faultLate e hlate (by decide) (by decide)]
  · rw [hother 467 (by decide), hfilter.word 467 (by decide), State.errno_raise (State.wf_of_sound hsound),
      if_pos (.inr hunderway)]
  · rw [hrecord.out, State.faultLate_out e hlate]
  · rw [hrecord.tl, State.faultLate_tl e hlate]

end

/-- Settles O26: S4 records the fault and leaves its mark, and with nothing enabled S9 finds the mark. -/
theorem electricalFaultDeferred : Obligations.ElectricalFaultDeferred := by
  unfold Obligations.ElectricalFaultDeferred
  intro s fb hinv hlate hstate hreq hmode hpending hfault
  obtain ⟨hsound, -, hguard, -, -⟩ := s.inv_iff.mp hinv
  have hmsound := State.measured_sound hsound fb
  have hmlate := (congrArg Params.haltSameTick (s.measured_params fb)).trans hlate
  have hmstate := (s.measured_word fb (n := 464) (by decide)).trans hstate
  have hmreq := (s.measured_word fb (n := 466) (by decide)).trans hreq
  have hunderway : (s.measured fb).haltUnderway = false :=
    (State.haltUnderway_eq_false_iff (by rw [hmstate]; decide) (by rw [s.measured_tl fb]; rfl)).mpr
      (by rw [hmreq]; decide)
  obtain ⟨h464, h466, h467, hout, htl⟩ := State.faultLate_outcome hmsound hmlate _ hunderway
    ((s.sequence_start fb).trans (State.steps4to9_faultLate hmsound hmlate hmstate hmreq
      ((s.measured_word fb (by decide)).trans hmode) ((s.measured_word fb (by decide)).trans hpending) hfault))
  have hexec := exec_tick_completes hguard fb (by rw [htl, s.measured_tl fb]; rfl)
  rw [State.measured_out hguard] at hout
  generalize s.startOp.openTick.sequence fb = t at *
  exact ⟨_, hexec, h464.trans hmstate, h466, h467, congrArg Outputs.sinks hout⟩

/-! ### The output sinks (46 R407, R408) -/

section
variable {s : State}

/-- Outside the legs' nine flags. -/
theorem State.word_legFlag_ne {k n : Nat} (b : Bool) (hk : 292 ≤ k ∧ k ≤ 300) (hn : n < 292 ∨ 300 < n) :
    (s.setFlag ⟨k, .bool⟩ b).word n = s.word n :=
  State.word_set_other (r := ⟨k, .bool⟩) (by dsimp only; omega) (by dsimp only; omega)

theorem State.word_classifyLeg_ne {i n : Nat} (hi : i < 3) (hn : n < 292 ∨ 300 < n) :
    (s.classifyLeg i).word n = s.word n := by
  rw [State.classifyLeg, State.word_legFlag_ne _ (by omega) hn, State.word_legFlag_ne _ (by omega) hn,
    State.word_legFlag_ne _ (by omega) hn]

/-- `classify()` writes the nine flags only (46 R406). -/
theorem State.word_classify_ne {n : Nat} (hn : n < 292 ∨ 300 < n) : s.classify.word n = s.word n := by
  rw [State.classify, State.word_classifyLeg_ne (by decide) hn, State.word_classifyLeg_ne (by decide) hn,
    State.word_classifyLeg_ne (by decide) hn]

theorem State.word_zFlags_ne (m : Word) {i n : Nat} (hi : i < 3) (hn : n < 292 ∨ 300 < n) :
    (s.zFlags m i).word n = s.word n := by
  unfold State.zFlags
  split
  · rw [State.word_legFlag_ne _ (by omega) hn, State.word_legFlag_ne _ (by omega) hn,
      State.word_legFlag_ne _ (by omega) hn]
  · rfl

/-- `emit_z` writes the mask's register and the flags only (46 R408). -/
theorem State.word_emitZ (hwf : s.regs.wf = true) (m : Word) {n : Nat} (hn : n < 292 ∨ 300 < n) :
    (s.emitZ m).word n = if n = 291 then m else s.word n := by
  rw [State.emitZ, State.word_zFlags_ne m (by decide) hn, State.word_zFlags_ne m (by decide) hn,
    State.word_zFlags_ne m (by decide) hn, State.word_setAny (s := s.callZ m) hwf _ _ _ (by decide) (by decide),
    State.callZ_word]

theorem State.OnlyRecord.of_onlyRegs {s t : State} (h : t = { s with regs := t.regs }) : s.OnlyRecord t := by
  unfold State.OnlyRecord
  rw [h]

/-- Beyond the call of the sink, an emitted duty changes the record only. -/
theorem State.onlyRecord_emitDuty (d : Legs I32) (hd : SinkCall.ok (s.word 41) (.duty d.a d.b d.c) = true)
    (he : s.tl.emitted = false) : (s.callDuty d).OnlyRecord (s.emitDuty d) := by
  rw [State.emitDuty_ok d hd he]
  exact ((((State.OnlyRecord.refl _).setAny (Reg.vsi_DC 0) _).setAny (Reg.vsi_DC 1) _).setAny (Reg.vsi_DC 2) _).trans
    (.of_onlyRegs (State.onlyRegs_classify _))

/-- The counts an emitted duty leaves. -/
theorem State.word_emitDuty_counts (hwf : s.regs.wf = true) (d : Legs I32)
    (hd : SinkCall.ok (s.word 41) (.duty d.a d.b d.c) = true) (he : s.tl.emitted = false) :
    (s.emitDuty d).word 288 = d.a ∧ (s.emitDuty d).word 289 = d.b ∧ (s.emitDuty d).word 290 = d.c := by
  have hwf0 : (s.callDuty d).regs.wf = true := hwf
  have hwf1 := State.wf_set hwf0 (Reg.vsi_DC 0) d.a
  have hwf2 := State.wf_set hwf1 (Reg.vsi_DC 1) d.b
  have hcounts : ∀ n, n < 292 → (s.emitDuty d).word n = if n = 290 then d.c else if n = 289 then d.b
      else if n = 288 then d.a else s.word n := fun n hn => by
    rw [State.emitDuty_ok d hd he, State.word_classify_ne (.inl hn),
      State.word_setAny hwf2 _ _ _ (by decide) (by decide), State.word_setAny hwf1 _ _ _ (by decide) (by decide),
      State.word_setAny hwf0 _ _ _ (by decide) (by decide), State.callDuty_word]
  exact ⟨hcounts 288 (by decide), hcounts 289 (by decide), hcounts 290 (by decide)⟩

theorem State.onlyRecord_zFlags (m : Word) (i : Nat) : s.OnlyRecord (s.zFlags m i) := by
  unfold State.zFlags
  split
  · exact (((State.OnlyRecord.refl s).setFlag _ _ rfl).setFlag _ _ rfl).setFlag _ _ rfl
  · exact .refl s

theorem State.onlyRecord_emitZ (m : Word) : (s.callZ m).OnlyRecord (s.emitZ m) :=
  ((((State.OnlyRecord.refl _).setAny Reg.vsi_Z m).trans (State.onlyRecord_zFlags m 0)).trans
    (State.onlyRecord_zFlags m 1)).trans (State.onlyRecord_zFlags m 2)

/-- The de-energized legs: the duty (0, 0, 0) and every leg in Z. -/
def State.legsOff (s : State) : State := (s.emitDuty ⟨0, 0, 0⟩).emitZ 7

theorem State.reach_legsOff (hs : s.sound = true) (he : s.tl.emitted = false) :
    State.Reach legRegs [.dutyTwice] s s.legsOff :=
  (State.reach_emitDuty_ok ⟨0, 0, 0⟩ (State.zeroDuty_ok hs) he).andThen
    (State.reach_emitZ (s := s.emitDuty ⟨0, 0, 0⟩) 7 (by decide))

/-- Beyond the calls of the two sinks, the record only. -/
theorem State.legsOff_calls (hs : s.sound = true) (he : s.tl.emitted = false) :
    s.legsOff.out = { s.out with sinks := s.out.sinks ++ [.duty 0 0 0, .z 7] } ∧
      s.legsOff.bridge = ⟨some ⟨0, 0, 0⟩, some 7⟩ ∧ s.legsOff.tl = { s.tl with emitted := true } := by
  have hduty := State.onlyRecord_emitDuty ⟨0, 0, 0⟩ (State.zeroDuty_ok hs) he
  have hz := State.onlyRecord_emitZ (s := s.emitDuty ⟨0, 0, 0⟩) 7
  refine ⟨?_, ?_, ?_⟩
  · rw [State.legsOff, hz.out, State.callZ_out, hduty.out]
    simp
  · rw [State.legsOff, hz.bridge, State.callZ_bridge, hduty.bridge]
    rfl
  · rw [State.legsOff, hz.tl, State.callZ_tl, hduty.tl]
    rfl

theorem State.word_legsOff (hs : s.sound = true) (he : s.tl.emitted = false) :
    s.legsOff.word 288 = 0 ∧ s.legsOff.word 289 = 0 ∧ s.legsOff.word 290 = 0 ∧ s.legsOff.word 291 = 7 := by
  have hwf := State.wf_of_sound hs
  have hd := State.zeroDuty_ok hs
  have hwf1 := State.wf_of_sound ((State.reach_emitDuty_ok ⟨0, 0, 0⟩ hd he).sound hs)
  obtain ⟨ha, hb, hc⟩ := State.word_emitDuty_counts hwf ⟨0, 0, 0⟩ hd he
  exact ⟨(State.word_emitZ hwf1 7 (.inl (by decide))).trans ha, (State.word_emitZ hwf1 7 (.inl (by decide))).trans hb,
    (State.word_emitZ hwf1 7 (.inl (by decide))).trans hc, State.word_emitZ hwf1 7 (.inl (by decide))⟩

end

/-! ### HALT's first tick (47 R449, 60 R504) -/

/-- HALT phase 0 after the legs are de-energized: the loops, the postponed EKF step and the injection are dropped, and
the settle timer is armed from 0 to `n`. -/
def State.haltSettle (s : State) (n : I32) : State :=
  ((s.loopsReset.set Reg.kalman_pending 0).set Reg.hfi_inject 0).nextPhase 1 n

/-- What HALT phase 0 writes after the legs are de-energized. -/
abbrev haltSettleRegs : Ranges :=
  [(389, 389), (392, 392), (432, 438), (444, 445), (448, 448), (465, 465), (468, 469)]

section
variable {s : State}

theorem State.haltEntry_eq (s : State) : s.haltEntry =
    (s.set Reg.lu_mode LuMode.disabled.code).legsOff.haltSettle (s.i Reg.tm_halt_pause) := rfl

theorem State.reach_haltSettle {n : I32} (hn : Kind.intLegal n = true) :
    State.Reach haltSettleRegs [] s (s.haltSettle n) :=
  (((((State.Reach.refl _ _ s).andThen State.reach_loopsReset).setConst Reg.kalman_pending 0).setConst
    Reg.hfi_inject 0).setConst Reg.fsm_phase 1).setConst Reg.tm_value 0 |>.set Reg.tm_end n (fun _ _ => hn)

theorem State.onlyRecord_haltSettle {n : I32} (hn : Kind.intLegal n = true) : s.OnlyRecord (s.haltSettle n) :=
  ((((((State.OnlyRecord.refl s).clear loopRegs).set Reg.kalman_pending 0).set Reg.hfi_inject 0).set Reg.fsm_phase 1).set
    Reg.tm_value 0).set Reg.tm_end n hn

theorem State.word_haltSettle (hwf : s.regs.wf = true) {n : I32} (hn : Kind.intLegal n = true) :
    (s.haltSettle n).word 389 = 0 ∧ (s.haltSettle n).word 465 = 1 ∧ (s.haltSettle n).word 468 = 0 ∧
      (s.haltSettle n).word 469 = n := by
  have h0 : s.loopsReset.regs.wf = true := State.wf_clear hwf loopRegs
  have h1 := State.wf_set h0 Reg.kalman_pending 0
  have h2 := State.wf_set h1 Reg.hfi_inject 0
  have h3 := State.wf_set h2 Reg.fsm_phase 1
  have h4 := State.wf_set h3 Reg.tm_value 0
  have hword : ∀ m, (s.haltSettle n).word m = if m = 469 then n else if m = 468 then 0 else if m = 465 then 1
      else if m = 392 then 0 else if m = 389 then 0 else s.loopsReset.word m := fun m => by
    rw [State.haltSettle, State.nextPhase, State.word_setLegal (r := Reg.tm_end) h4 hn (by decide),
      State.word_setLegal h3 (by decide) (by decide), State.word_setLegal h2 (by decide) (by decide),
      State.word_setLegal h1 (by decide) (by decide), State.word_setLegal h0 (by decide) (by decide)]
  exact ⟨hword 389, hword 465, hword 468, hword 469⟩

/-- What HALT phase 0 leaves (47 R449). -/
structure State.HaltEntered (s t : State) : Prop where
  sinks : t.out.sinks = s.out.sinks ++ [.duty 0 0 0, .z 7]
  bridge : t.bridge = ⟨some ⟨0, 0, 0⟩, some 7⟩
  marks : t.tl = { s.tl with emitted := true }
  mode : t.word 320 = 0
  counts : t.word 288 = 0 ∧ t.word 289 = 0 ∧ t.word 290 = 0
  mask : t.word 291 = 7
  pending : t.word 389 = 0
  phase : t.word 465 = 1
  timer : t.word 468 = 0 ∧ t.word 469 = s.word 195
  state : t.word 464 = s.word 464

theorem State.haltEntered (hs : s.sound = true) (he : s.tl.emitted = false) : State.HaltEntered s s.haltEntry := by
  have hpause : Kind.intLegal (s.i Reg.tm_halt_pause) = true :=
    State.legal_word s hs (n := 195) (k := .intNonNeg) (by decide +kernel)
  have hmode : State.Reach haltRegs [] s (s.set Reg.lu_mode LuMode.disabled.code) :=
    (State.Reach.refl _ _ s).setConst _ _
  have hmodeRecord : s.OnlyRecord (s.set Reg.lu_mode LuMode.disabled.code) :=
    (State.OnlyRecord.refl s).set _ _
  have hmodeWord := State.word_setLegal (State.wf_of_sound hs) (r := Reg.lu_mode) (w := LuMode.disabled.code) (by decide)
    (by decide)
  have hs0 := hmode.sound hs
  rw [State.haltEntry_eq]
  generalize s.set Reg.lu_mode LuMode.disabled.code = s0 at *
  have he0 : s0.tl.emitted = false := by rw [hmodeRecord.tl, he]
  have hoff := State.reach_legsOff hs0 he0
  obtain ⟨hout, hbridge, hmarks⟩ := State.legsOff_calls hs0 he0
  obtain ⟨h288, h289, h290, h291⟩ := State.word_legsOff hs0 he0
  have hs1 := hoff.sound hs0
  generalize s0.legsOff = s1 at *
  have hsettle := State.reach_haltSettle (s := s1) hpause
  have hsettleRecord := State.onlyRecord_haltSettle (s := s1) hpause
  obtain ⟨h389, h465, h468, h469⟩ := State.word_haltSettle (State.wf_of_sound hs1) hpause
  exact {
    sinks := by rw [hsettleRecord.out, hout, hmodeRecord.out]
    bridge := by rw [hsettleRecord.bridge, hbridge]
    marks := by rw [hsettleRecord.tl, hmarks, hmodeRecord.tl]
    mode := by rw [hsettle.word 320 (by decide), hoff.word 320 (by decide)]; exact hmodeWord 320
    counts := by
      rw [hsettle.word 288 (by decide), hsettle.word 289 (by decide), hsettle.word 290 (by decide)]
      exact ⟨h288, h289, h290⟩
    mask := by rw [hsettle.word 291 (by decide), h291]
    pending := h389
    phase := h465
    timer := ⟨h468, h469⟩
    state := by rw [hsettle.word 464 (by decide), hoff.word 464 (by decide)]; exact hmodeWord 464 }

/-- A transfer of the command FSM starts the state at phase 0 (47 R430). -/
theorem State.word_enterState (hwf : s.regs.wf = true) (q : FsmState) :
    (s.enterState q).word 464 = q.code ∧ (s.enterState q).word 465 = 0 := by
  have h1 := State.wf_set hwf Reg.fsm_state q.code
  have h2 := State.wf_set h1 Reg.fsm_phase 0
  have h3 := State.wf_set h2 Reg.tm_value 0
  have hword : ∀ n, (s.enterState q).word n = if n = 469 then 0 else if n = 468 then 0 else if n = 465 then 0
      else (s.set Reg.fsm_state q.code).word n := fun n => by
    rw [State.enterState, State.word_setLegal h3 (by decide) (by decide), State.word_setLegal h2 (by decide) (by decide),
      State.word_setLegal h1 (by decide) (by decide)]
  exact ⟨(hword 464).trans (State.word_set_same (r := Reg.fsm_state) hwf (FsmState.code_legal q)), hword 465⟩

/-- A pending HALT empties the slot and enters HALT unless it runs already (47 R430). -/
theorem State.consumeRequest_halt (h : s.word 466 = FsmState.halt.code) :
    s.consumeRequest = (s.set Reg.fsm_req 0).when (!s.fsmIs .halt) (·.enterState .halt) := by
  have hfsm : (s.set Reg.fsm_req 0).fsmIs .halt = s.fsmIs .halt := by
    unfold State.fsmIs
    rw [State.word_set_other (r := Reg.fsm_req) (by decide) nofun]
  have hslot : s.word Reg.fsm_req.num = FsmState.halt.code := h
  rw [State.consumeRequest, if_neg (by rw [hslot]; decide), hslot, FsmState.ofWord_code, ← hfsm]
  rfl

theorem State.runState_halt (h : s.word 464 = FsmState.halt.code) : s.runState = s.runHalt := by
  rw [State.runState, show s.word Reg.fsm_state.num = FsmState.halt.code from h, FsmState.ofWord_code]

/-- HALT, taken from the request slot outside HALT (47 R430). -/
def State.haltTaken (s : State) : State := (s.set Reg.fsm_req 0).enterState .halt

theorem State.reach_haltTaken : State.Reach [(464, 466), (468, 469)] [] s s.haltTaken :=
  ((State.Reach.refl _ _ s).setConst Reg.fsm_req 0).andThen (State.reach_enterState _)

theorem State.onlyRecord_haltTaken : s.OnlyRecord s.haltTaken :=
  (((((State.OnlyRecord.refl s).set Reg.fsm_req 0).set Reg.fsm_state FsmState.halt.code).set Reg.fsm_phase 0).set
    Reg.tm_value 0).set Reg.tm_end 0

theorem State.word_haltTaken (hwf : s.regs.wf = true) :
    s.haltTaken.word 464 = FsmState.halt.code ∧ s.haltTaken.word 465 = 0 ∧ s.haltTaken.word 466 = 0 := by
  obtain ⟨h464, h465⟩ := State.word_enterState (State.wf_set hwf Reg.fsm_req 0) .halt
  refine ⟨h464, h465, ?_⟩
  rw [State.haltTaken, (State.reach_enterState _).word 466 (by decide)]
  exact State.word_set_same (r := Reg.fsm_req) hwf (by decide)

/-- A pending HALT outside HALT enters it, and its phase 0 runs in this tick (47 R430, R449). -/
theorem State.fsmStep_enterHalt (hwf : s.regs.wf = true) (hreq : s.word 466 = FsmState.halt.code)
    (hstate : s.word 464 ≠ FsmState.halt.code) : s.fsmStep = s.haltTaken.haltEntry := by
  have hfsm : s.fsmIs .halt = false := by simp [State.fsmIs, hstate]
  obtain ⟨h464, h465, -⟩ := State.word_haltTaken hwf
  rw [State.fsmStep, State.consumeRequest_halt hreq, hfsm]
  exact (State.runState_halt h464).trans (if_pos (beq_iff_eq.mpr h465))

/-- After HALT's phase 0 the steps S7 and S8 find nothing to do. -/
theorem State.HaltEntered.steps7to8 {s t : State} (h : State.HaltEntered s t) : t.lookupPart.postponedPart = t := by
  rw [State.lookupPart_disabled h.mode, State.postponedPart_none h.pending]

end

/-! ### An electrical fault's HALT in its own tick -/

section
variable {s : State}

/-- The state that HALT's phase 0 starts from, when a fault of S4 has entered it in its own tick. -/
def State.faultTaken (s : State) (e : Errno) : State := (s.raise e true).tvmFilter.haltTaken

theorem State.reach_faultTaken (e : Errno) : State.Reach [(256, 282), (464, 469)] [] s (s.faultTaken e) :=
  (((State.reach_raise e true).mono).andThen State.reach_tvmFilter).andThen State.reach_haltTaken

theorem State.onlyRecord_faultTaken (e : Errno) (hnow : s.params.haltSameTick = true) :
    s.OnlyRecord (s.faultTaken e) :=
  ((State.onlyRecord_raise_now e (.inl hnow)).trans State.onlyRecord_tvmFilter).trans State.onlyRecord_haltTaken

theorem State.errno_faultTaken (hwf : s.regs.wf = true) (e : Errno) :
    (s.faultTaken e).word 467 = if s.word 467 = 0 ∨ s.haltUnderway = false then e.code else s.word 467 := by
  rw [State.faultTaken, State.reach_haltTaken.word 467 (by decide), State.reach_tvmFilter.word 467 (by decide),
    State.errno_raise hwf]

/-- S4 to S9 with an electrical fault outside HALT, `HALT_SAME_TICK` being true: HALT's phase 0 runs, and S7 to S9 find
nothing to do. -/
theorem State.steps4to9_faultNow (hsound : s.sound = true) (hnow : s.params.haltSameTick = true)
    (hemitted : s.tl.emitted = false) (hstate : s.word 464 ≠ FsmState.halt.code)
    (hfault : s.overCurrent = true ∨ s.overVoltage = true) :
    s.faultCheck.tvmFilter.fsmStep.lookupPart.postponedPart.deferredPart =
      (s.faultTaken s.electricalFault).haltEntry := by
  have hfilter : State.Reach feedbackRegs [] (s.raise s.electricalFault true)
      (s.raise s.electricalFault true).tvmFilter := State.reach_tvmFilter
  have hreq := (hfilter.word 466 (by decide)).trans (State.request_raise_now hsound _ (.inl hnow))
  have hstate' : (s.raise s.electricalFault true).tvmFilter.word 464 ≠ FsmState.halt.code := by
    rwa [hfilter.word 464 (by decide), (State.reach_raise _ _).word 464 (by decide)]
  have hwf := State.wf_of_sound (hfilter.sound ((State.reach_raise _ _).sound hsound))
  have htaken := (State.reach_faultTaken s.electricalFault).sound hsound
  have hentered := State.haltEntered htaken ((State.onlyRecord_faultTaken _ hnow).tl ▸ hemitted)
  rw [State.faultCheck_fault hsound hfault, State.fsmStep_enterHalt hwf hreq hstate', ← State.faultTaken,
    hentered.steps7to8, State.deferredPart_sameTick]
  rw [State.reach_haltEntry_any.params, (State.reach_faultTaken _).params, hnow]

/-- The FSM's registers after such a tick, beside those of HALT's phase 0. -/
theorem State.faultNow_outcome (hsound : s.sound = true) (hnow : s.params.haltSameTick = true)
    (hemitted : s.tl.emitted = false) (e : Errno) {t : State} (ht : t = (s.faultTaken e).haltEntry) :
    State.HaltEntered (s.faultTaken e) t ∧ t.word 464 = FsmState.halt.code ∧ t.word 466 = 0 ∧
      t.word 467 = if s.word 467 = 0 ∨ s.haltUnderway = false then e.code else s.word 467 := by
  have hrecord := State.onlyRecord_faultTaken e hnow
  have hfilter : (s.raise e true).tvmFilter.sound = true :=
    State.reach_tvmFilter.sound ((State.reach_raise _ _).sound hsound)
  obtain ⟨h464, -, h466⟩ := State.word_haltTaken (State.wf_of_sound hfilter)
  have hentered : State.HaltEntered (s.faultTaken e) t :=
    ht ▸ State.haltEntered ((State.reach_faultTaken e).sound hsound) (hrecord.tl ▸ hemitted)
  have hother : ∀ n, haltRegs.has n = false → t.word n = (s.faultTaken e).word n := ht ▸ State.reach_haltEntry_any.word
  exact ⟨hentered, hentered.state.trans h464, (hother 466 (by decide)).trans h466,
    (hother 467 (by decide)).trans (State.errno_faultTaken (State.wf_of_sound hsound) e)⟩

end

/-- Settles O25: the fault's HALT is taken by S6 of the same tick, its phase 0 de-energizes the legs, and the record
keeps the code S4 gave it. -/
theorem electricalFaultHaltsSameTick : Obligations.ElectricalFaultHaltsSameTick := by
  unfold Obligations.ElectricalFaultHaltsSameTick
  intro s fb hinv hnow hstate hfault
  obtain ⟨hsound, -, hguard, -, -⟩ := s.inv_iff.mp hinv
  have hmword : ∀ n, feedbackRegs.has n = false → (s.measured fb).word n = s.word n := fun n => s.measured_word fb
  have hmsound := State.measured_sound hsound fb
  have hmnow := (congrArg Params.haltSameTick (s.measured_params fb)).trans hnow
  have hmtl := s.measured_tl fb
  have hmout := State.measured_out hguard fb
  have hmstate : (s.measured fb).word 464 ≠ FsmState.halt.code := by rwa [hmword 464 (by decide)]
  have hsequence := (s.sequence_start fb).trans
    (State.steps4to9_faultNow hmsound hmnow (hmtl ▸ rfl) hmstate hfault)
  generalize s.measured fb = m at *
  obtain ⟨hentered, h464, h466, h467⟩ := State.faultNow_outcome hmsound hmnow (hmtl ▸ rfl) _ hsequence
  have hrecord := State.onlyRecord_faultTaken m.electricalFault hmnow
  have hexec := exec_tick_completes hguard fb (by rw [hentered.marks, hrecord.tl, hmtl]; rfl)
  generalize s.startOp.openTick.sequence fb = t at *
  simp only [State.haltUnderway_eq_false_iff hmstate (hmtl ▸ rfl), hmword 467 (by decide),
    hmword 466 (by decide)] at h467
  obtain ⟨h288, h289, h290⟩ := hentered.counts
  obtain ⟨h468, h469⟩ := hentered.timer
  refine ⟨_, hexec, h464, hentered.phase, h466, h468, ?_, h467, hentered.mode, h288, h289, h290, hentered.mask, ?_,
    hentered.bridge⟩
  · exact h469.trans (((State.reach_faultTaken _).word 195 (by decide)).trans (hmword 195 (by decide)))
  · exact hentered.sinks.trans (by rw [hrecord.out, hmout]; rfl)

/-! ### The lookup step in DETACHED before its startup timer ends (42 R230, R240) -/

section
variable {s : State}

theorem State.Reach.runs {W : Ranges} {s t : State} (h : State.Reach W [] s t) (hs : s.sound = true)
    (hruns : s.tl.unmodelled = none) : t.tl.unmodelled = none := by
  cases ht : t.tl.unmodelled with
  | none => rfl
  | some f => exact absurd ((h.stops hs f ht).resolve_right List.not_mem_nil) (by simp [hruns])

/-- What the lookup step writes before its transition; the mode and its timer are not among it. -/
abbrev luUpdateRegs : Ranges :=
  [(4, 4), (330, 332), (336, 338), (344, 356), (360, 389), (392, 398), (400, 403), (408, 416), (420, 428), (466, 467)]

theorem State.reach_luUpdate_keepsMode : State.Reach luUpdateRegs [] s s.luUpdate :=
  ((((((State.Reach.refl _ _ s).copyVec _ _).copy _ _).andThen State.reach_estimatorBackground).andThen
    State.reach_sensorTrackers).when _ _ (fun u =>
      ((State.Reach.refl _ _ u).andThen State.reach_hfiDemod).andThen State.reach_hfiDemand)).when _ _
        (fun u => ((State.Reach.refl _ _ u).setF _ _).setVec _ _)

/-- What the lookup step writes after its transition; the mode is not among it. The lemmas of Laws/ReachLookup give
each of these operations the registers of the whole step, where the mode is. -/
abbrev luFollowRegs : Ranges := [(321, 323), (325, 329)]

theorem State.reach_blend_keepsMode (c : Candidate) : State.Reach luFollowRegs [] s (s.blend c) := by
  unfold State.blend
  dsimp only
  split_ifs
  · exact ((State.Reach.refl _ _ s).copyVec _ _).copy _ _
  · exact ((State.Reach.refl _ _ s).setVec _ _).copy _ _

theorem State.reach_revolutions_keepsMode : State.Reach luFollowRegs [] s s.revolutions :=
  ((State.Reach.refl _ _ s).setAny _ _).trans
    ((State.Reach.refl _ _ _).when _ _ (fun u => ((State.Reach.refl _ _ u).setAny _ _).copy _ _))

theorem State.reach_location_keepsMode : State.Reach luFollowRegs [.illegalCode] s s.location := by
  unfold State.location
  split_ifs
  · exact (State.Reach.refl _ _ s).setF _ _
  · exact (State.Reach.refl _ _ s).copy _ _
  · exact (State.Reach.refl _ _ s).copy _ _
  · exact (State.Reach.refl _ _ s).poison _

theorem State.reach_loadTorque_keepsMode : State.Reach luFollowRegs [] s s.loadTorque := by
  unfold State.loadTorque
  split_ifs
  · exact (State.Reach.refl _ _ s).setF _ _
  · exact (State.Reach.refl _ _ s).setF _ _
  · exact .refl _ _ s

theorem State.luFollow_mode : s.luFollow.word 320 = s.word 320 := by
  have h : State.Reach luFollowRegs [.illegalCode] s s.luFollow :=
    (State.Reach.refl _ _ s).bindOr _ _ _ (fun _ => by decide) (fun c _ =>
      (((State.reach_blend_keepsMode c).trans State.reach_revolutions_keepsMode).mono.trans
        State.reach_location_keepsMode).trans State.reach_loadTorque_keepsMode.mono)
  exact h.word 320 (by decide)

/-- In DETACHED before its startup timer ends: the mode the lookup step starts in, whose edges are shut. -/
def State.WaitsDetached (s : State) : Prop := s.modeIs .detached = true ∧ s.modeTimeUp Reg.tm_startup = false

theorem State.WaitsDetached.edge (h : s.WaitsDetached) : s.edge = none := by
  obtain ⟨hmode, htime⟩ := h
  simp [State.edge, State.edgeDetached, hmode, htime]

theorem State.WaitsDetached.transition (h : s.WaitsDetached) : s.transition = s := by
  have hlocks : s.locksNow = false := by simp [State.locksNow, h.2]
  simp [State.transition, h.edge, State.when, hlocks]

/-- Steps that write neither the mode nor its timer keep the wait. -/
theorem State.WaitsDetached.of_words {t : State} (h : s.WaitsDetached) (hmode : t.word 320 = s.word 320)
    (htimer : t.word 324 = s.word 324) (hstartup : t.word 81 = s.word 81) : t.WaitsDetached := by
  unfold State.WaitsDetached State.modeIs State.modeTimeUp State.i at *
  rwa [hmode, htimer, hstartup]

theorem State.WaitsDetached.luStep (h : s.WaitsDetached) (hs : s.sound = true) : s.luStep.modeIs .detached = true := by
  have hupdate : State.Reach luUpdateRegs [] s s.luUpdate := State.reach_luUpdate_keepsMode
  have hu := h.of_words (hupdate.word 320 (by decide)) (hupdate.word 324 (by decide)) (hupdate.word 81 (by decide))
  have hstep : s.luStep = s.luUpdate.luFollow.count1 Reg.lu_tm := by
    rw [State.luStep, State.sincos_never hs, State.luFinish, hu.edge, hu.transition]
    rfl
  have hmode : s.luStep.word 320 = s.luUpdate.word 320 := by
    rw [hstep, State.count1, State.word_set_other (r := Reg.lu_tm) (by decide) nofun, State.luFollow_mode]
  unfold State.modeIs at *
  rw [hmode]
  exact hu.1

end

/-! ### S7 without a voltage (41 R207, R208) -/

section
variable {s : State}

/-- A drawn duty is the first of the tick when none was emitted before it. -/
theorem State.dutyDraw_runs (hs : s.sound = true) (hruns : s.tl.unmodelled = none) (hemitted : s.tl.emitted = false) :
    s.dutyDraw.tl.unmodelled = none := by
  unfold State.dutyDraw
  dsimp only
  split
  · exact hruns
  · rw [(State.onlyRecord_emitDuty (s := { s with draws := s.draws + 1 }) _ (State.drawnDuty_ok hs _) hemitted).tl]
    exact hruns

theorem State.frameFault_runs (hs : s.sound = true) (hruns : s.tl.unmodelled = none) (hemitted : s.tl.emitted = false) :
    s.frameFault.tl.unmodelled = none := by
  have hraise : State.Reach faultRegs [] s (s.raise .invalidOperation false) := State.reach_raise _ _
  exact State.dutyDraw_runs (hraise.sound hs) (hraise.runs hs hruns) ((hraise.quiet (by simp)).trans hemitted)

/-- In DETACHED the drive does nothing, and a non-finite frame draws the tick's only duty. -/
theorem State.checkedDrive_runs (hs : s.sound = true) (hruns : s.tl.unmodelled = none) (hemitted : s.tl.emitted = false)
    (hmode : s.modeIs .detached = true) : s.checkedDrive.tl.unmodelled = none := by
  unfold State.checkedDrive
  split
  · rw [State.drive, if_pos hmode]
    exact State.reach_mileage.runs hs hruns
  · exact State.frameFault_runs hs hruns hemitted

/-- Nothing drives the motor in S7: the lookup FSM is DISABLED, or it waits in DETACHED and no duty has gone out. -/
structure State.Undriven (s : State) : Prop where
  sound : s.sound = true
  runs : s.tl.unmodelled = none
  mode : s.word 320 = 0 ∨ (s.WaitsDetached ∧ s.tl.emitted = false)

theorem State.Undriven.lookupPart_runs (h : s.Undriven) :
    s.lookupPart.sound = true ∧ s.lookupPart.tl.unmodelled = none := by
  refine ⟨(State.reach_lookupPart h.sound).sound h.sound, ?_⟩
  rcases h.mode with hdisabled | ⟨hwaits, hemitted⟩
  · rw [State.lookupPart_disabled hdisabled]
    exact h.runs
  · have henabled : s.modeIs .disabled = false := by
      rw [State.modeIs_eq (beq_iff_eq.mp hwaits.1)]; rfl
    have hdisabled : ¬ s.modeIs .disabled = true := by simp [henabled]
    have hstep : State.Reach luRegs [] s s.luStep := State.reach_luStep h.sound henabled
    have hproject : State.Reach [(269, 270)] [] s.luStep s.luStep.projectCurrent := State.reach_projectCurrent
    have hmode : s.luStep.projectCurrent.modeIs .detached = true := by
      unfold State.modeIs
      rw [hproject.word 320 (by decide)]
      exact hwaits.luStep h.sound
    rw [State.lookupPart, if_neg hdisabled]
    exact State.checkedDrive_runs (hproject.sound (hstep.sound h.sound))
      (hproject.runs (hstep.sound h.sound) (hstep.runs h.sound h.runs))
      ((hproject.quiet (by simp)).trans ((hstep.quiet (by simp)).trans hemitted)) hmode

/-- Steps that write neither the mode nor its timer, and call no duty, keep it so. -/
theorem State.Undriven.of_reach {W : Ranges} {t : State} (h : s.Undriven) (hreach : State.Reach W [] s t)
    (hW : (W.has 320 || W.has 324 || W.has 81) = false := by decide) : t.Undriven where
  sound := hreach.sound h.sound
  runs := hreach.runs h.sound h.runs
  mode := by
    simp only [Bool.or_eq_false_iff] at hW
    obtain ⟨⟨h320, h324⟩, h81⟩ := hW
    have hword := hreach.word 320 h320
    exact h.mode.imp hword.trans fun ⟨hwaits, hemitted⟩ =>
      ⟨hwaits.of_words hword (hreach.word 324 h324) (hreach.word 81 h81), (hreach.quiet (by simp)).trans hemitted⟩

end

/-! ### S6 in IDLE and in HALT -/

section
variable {s : State}

/-- Consuming a HALT, or nothing, in IDLE or in HALT leads to IDLE or to HALT. -/
theorem State.consumeRequest_idle_or_halt (hwf : s.regs.wf = true)
    (hstate : s.word 464 = 0 ∨ s.word 464 = FsmState.halt.code)
    (hreq : s.word 466 = 0 ∨ s.word 466 = FsmState.halt.code) :
    s.consumeRequest.word 464 = 0 ∨ s.consumeRequest.word 464 = FsmState.halt.code := by
  rcases hreq with hreq | hreq
  · rwa [State.consumeRequest_none hreq]
  · rw [State.consumeRequest_halt hreq, State.when]
    split
    · exact .inr (State.word_enterState (State.wf_set hwf _ _) _).1
    · rwa [State.word_set_other (r := Reg.fsm_req) (by decide) nofun]

/-- HALT phase 0 disables the lookup FSM; its other phases leave it. -/
theorem State.Undriven.runHalt (h : s.Undriven) (hemitted : s.tl.emitted = false) : s.runHalt.Undriven := by
  unfold State.runHalt
  split_ifs
  · have hentered := State.haltEntered h.sound hemitted
    exact ⟨(State.reach_haltEntry h.sound).sound h.sound, by rw [hentered.marks]; exact h.runs, .inl hentered.mode⟩
  · exact h.of_reach State.reach_haltReturn
  · exact h

theorem State.Undriven.fsmStep (h : s.Undriven) (hemitted : s.tl.emitted = false)
    (hstate : s.word 464 = 0 ∨ s.word 464 = FsmState.halt.code)
    (hreq : s.word 466 = 0 ∨ s.word 466 = FsmState.halt.code) : s.fsmStep.Undriven := by
  have hconsume : State.Reach consumeRegs [] s s.consumeRequest := State.reach_consumeRequest
  have hconsumed : s.consumeRequest.Undriven := h.of_reach hconsume
  rw [State.fsmStep]
  rcases State.consumeRequest_idle_or_halt (State.wf_of_sound h.sound) hstate hreq with hidle | hhalt
  · rwa [State.runState_idle hidle]
  · rw [State.runState_halt hhalt]
    exact hconsumed.runHalt ((hconsume.quiet (by simp)).trans hemitted)

/-- A fault leaves the request slot or puts HALT into it. -/
theorem State.request_raise (hs : s.sound = true) (e : Errno) :
    (s.raise e true).word 466 = s.word 466 ∨ (s.raise e true).word 466 = FsmState.halt.code := by
  cases hsame : s.params.haltSameTick with
  | false => exact .inl (State.word_raise_late e hsame (by decide))
  | true => exact .inr (State.request_raise_now hs e (.inl hsame))

theorem State.request_faultCheck (hs : s.sound = true) :
    s.faultCheck.word 466 = s.word 466 ∨ s.faultCheck.word 466 = FsmState.halt.code := by
  by_cases hfault : s.overCurrent = true ∨ s.overVoltage = true
  · rw [State.faultCheck_fault hs hfault]
    exact State.request_raise hs _
  · simp only [not_or, Bool.not_eq_true] at hfault
    rw [State.faultCheck_none hfault.1 hfault.2]
    exact .inl rfl

/-- Steps S4 to S9 from a measured state in IDLE or HALT in which nothing drives the motor. -/
theorem State.Undriven.steps4to9_runs (h : s.Undriven) (hemitted : s.tl.emitted = false)
    (hstate : s.word 464 = 0 ∨ s.word 464 = FsmState.halt.code)
    (hreq : s.word 466 = 0 ∨ s.word 466 = FsmState.halt.code) :
    s.faultCheck.tvmFilter.fsmStep.lookupPart.postponedPart.deferredPart.tl.unmodelled = none := by
  have hfilter : State.Reach feedbackRegs [] s.faultCheck s.faultCheck.tvmFilter := State.reach_tvmFilter
  have hchecked : State.Reach ingestRegs [] s s.faultCheck.tvmFilter := State.reach_faultCheck.mono.andThen hfilter
  have hreq' : s.faultCheck.tvmFilter.word 466 = 0 ∨ s.faultCheck.tvmFilter.word 466 = FsmState.halt.code := by
    rw [hfilter.word 466 (by decide)]
    rcases State.request_faultCheck h.sound with hkept | hhalt
    · rwa [hkept]
    · exact .inr hhalt
  have hstepped : s.faultCheck.tvmFilter.fsmStep.Undriven :=
    (h.of_reach hchecked).fsmStep ((hchecked.quiet (by simp)).trans hemitted)
      (by rwa [hchecked.word 464 (by decide)]) hreq'
  obtain ⟨hsound, hruns⟩ := hstepped.lookupPart_runs
  exact State.reach_deferredPart.runs (State.reach_postponedPart.sound hsound)
    (State.reach_postponedPart.runs hsound hruns)

end

/-- Timers compared as two's complement and as numbers: neither is negative. -/
theorem State.waitsDetached_of_lt {s : State} (hs : s.sound = true) (hmode : s.word 320 = LuMode.detached.code)
    (htimer : (s.word 324).toNat < (s.word 81).toNat) : s.WaitsDetached := by
  have hlegal : (s.word 81).toNat < 2147483648 :=
    State.Reach.intLegal_iff.mp (State.legal_word s hs (n := 81) (k := .intNonNeg) (by decide +kernel))
  refine ⟨beq_iff_eq.mpr hmode, ?_⟩
  change BitVec.sle (s.word 81) (s.word 324) = false
  rw [BitVec.sle_eq_decide, decide_eq_false_iff_not, BitVec.toInt_eq_toNat_cond, BitVec.toInt_eq_toNat_cond]
  split <;> split <;> omega

/-- Settles O24: no step of such a TICK issues a voltage, and the one duty it can call is HALT's or the draw of a
non-finite frame. -/
theorem undrivenTickCompletes : Obligations.UndrivenTickCompletes := by
  unfold Obligations.UndrivenTickCompletes
  intro s fb hinv hstate hreq hmode
  obtain ⟨hsound, -, hguard, -, -⟩ := s.inv_iff.mp hinv
  have hword : ∀ n, feedbackRegs.has n = false → (s.measured fb).word n = s.word n := fun n => s.measured_word fb
  have hmsound := State.measured_sound hsound fb
  have hmtl := s.measured_tl fb
  have hsequence := s.sequence_start fb
  have hticks := (State.reach_sequence (State.sound_start hsound) fb).tick
  generalize s.measured fb = m at *
  have hundriven : m.Undriven := ⟨hmsound, hmtl ▸ rfl, hmode.imp (hword 320 (by decide)).trans fun ⟨hdetached, htimer⟩ =>
    ⟨State.waitsDetached_of_lt hmsound ((hword 320 (by decide)).trans hdetached)
      (by rwa [hword 324 (by decide), hword 81 (by decide)]), hmtl ▸ rfl⟩⟩
  have hruns := hundriven.steps4to9_runs (hmtl ▸ rfl) (by rwa [hword 464 (by decide)]) (by rwa [hword 466 (by decide)])
  rw [← hsequence] at hruns
  exact ⟨_, exec_tick_completes hguard fb hruns, congrArg (· + 1) (hticks.trans s.startOp_tick)⟩

end Sys2Proof.Machine

/-!
PROOFS. The lookup FSM's step (spec/42_lu_fsm.md): the blend and the revolution counters, register by register.
-/

namespace Sys2Proof.Machine

/-! ### The blend (42 R232, R234) -/

section
variable {s : State} {c : Candidate}

/-- Every candidate stands in other registers than the authoritative frame and speed. -/
theorem State.candidate_outside (h : s.candidate = some c) :
    ∀ n ∈ [(c.frame 0).num, (c.frame 1).num, c.speed.num], n < 321 ∨ 323 < n := by
  unfold State.candidate at h
  split_ifs at h <;> cases h <;> decide

/-- The blend's choice of the frame, before the speed is taken. -/
def State.blendFrame (s : State) (c : Candidate) : State :=
  let e := s.params.rel (s.vec c.frame) (s.vec Reg.lu_F)
  let lim := (s.f Reg.lu_rate).mul (s.f Reg.dT)
  if e.abs.le lim then s.copyVec Reg.lu_F c.frame
  else s.setVec Reg.lu_F (s.params.rot (s.vec Reg.lu_F) (e.signF.mul lim))

theorem State.blend_eq (s : State) (c : Candidate) : s.blend c = (s.blendFrame c).copy Reg.lu_wS c.speed := rfl

theorem State.reach_blendFrame : State.Reach [(321, 322)] [] s (s.blendFrame c) := by
  unfold State.blendFrame
  dsimp only
  split_ifs
  · exact (State.Reach.refl _ _ s).copyVec _ _
  · exact (State.Reach.refl _ _ s).setVec _ _

theorem State.word_blend (hs : s.sound = true) (h : s.candidate = some c) (n : Nat) :
    (s.blend c).word n = if n = 323 then s.word c.speed.num else (s.blendFrame c).word n := by
  have hspeed := State.candidate_outside h c.speed.num (by simp)
  rw [State.blend_eq, State.word_copy (State.wf_of_sound (State.reach_blendFrame.sound hs)) _ _ _ (by decide)
    (by decide), State.reach_blendFrame.word c.speed.num
      (Ranges.has_cons_false.mpr ⟨by omega, Ranges.has_nil _⟩)]

/-- A candidate's frame is copied element by element; the second is not where the first went. -/
theorem State.word_copyFrame (hwf : s.regs.wf = true) (h : s.candidate = some c) :
    ∀ i < 2, (s.copyVec Reg.lu_F c.frame).word (Reg.lu_F i).num = s.word (c.frame i).num := by
  have hframe := State.candidate_outside h (c.frame 1).num (by simp)
  have hwf1 := State.wf_copy hwf (Reg.lu_F 0) (c.frame 0)
  intro i hi
  obtain rfl | rfl : i = 0 ∨ i = 1 := by omega
  · rw [State.copyVec, State.word_copy hwf1 _ _ _ (by decide) (by decide), if_neg (by decide),
      State.word_copy hwf _ _ _ (by decide) (by decide), if_pos rfl]
  · rw [State.copyVec, State.word_copy hwf1 _ _ _ (by decide) (by decide), if_pos rfl,
      State.word_copy hwf _ _ _ (by decide) (by decide), if_neg (by dsimp only; omega)]

/-- A computed frame is stored element by element, where it is a number. -/
theorem State.word_setFrame (hwf : s.regs.wf = true) (v : Vec2) :
    (v.v0.isNaN = false → (s.setVec Reg.lu_F v).word 321 = v.v0.bits) ∧
      (v.v1.isNaN = false → (s.setVec Reg.lu_F v).word 322 = v.v1.bits) := by
  obtain ⟨hfirst, -⟩ := State.setF_stores hwf 321 (by decide) v.v0
  obtain ⟨hsecond, hkeep⟩ := State.setF_stores (State.wf_setF hwf (Reg.lu_F 0) v.v0) 322 (by decide) v.v1
  exact ⟨fun hv => (hkeep 321 (by decide)).trans (hfirst hv), hsecond⟩

end

/-- Settles O46: the frame follows one of the blend's two branches, and the speed is the candidate's in both. -/
theorem blendLimitsTheFrame : Obligations.BlendLimitsTheFrame := by
  unfold Obligations.BlendLimitsTheFrame
  intro s c hsound hc e lim turned
  have hwf := State.wf_of_sound hsound
  have hword := State.word_blend hsound hc
  refine ⟨hword 323, fun hnear i hi => ?_, fun hfar => ?_, fun n hn => ?_⟩
  · rw [hword, if_neg (by dsimp only; omega), State.blendFrame, if_pos hnear]
    exact State.word_copyFrame hwf hc i hi
  · have hframe : s.blendFrame c = s.setVec Reg.lu_F turned := if_neg (by rw [hfar]; decide)
    rw [hword, hword, if_neg (by decide), if_neg (by decide), hframe]
    exact State.word_setFrame hwf turned
  · obtain ⟨hn', -⟩ := Ranges.has_cons_false.mp hn
    rw [hword, if_neg (by omega), State.reach_blendFrame.word n
      (Ranges.has_cons_false.mpr ⟨by omega, Ranges.has_nil _⟩)]

/-! ### The revolution counters (42 R235) -/

/-- The distance of two counters as a word; at the least `i32` it is the word of 2^31. -/
theorem I32.abs_eq_ofInt_natAbs (d : I32) : I32.abs d = BitVec.ofInt 32 d.toInt.natAbs := by
  unfold I32.abs
  split_ifs with hneg
  · rw [BitVec.slt_iff_toInt_lt] at hneg
    rw [Int.ofNat_natAbs_of_nonpos (le_of_lt hneg), BitVec.ofInt_neg, BitVec.ofInt_toInt]
  · rw [BitVec.slt_iff_toInt_lt, not_lt] at hneg
    rw [Int.natAbs_of_nonneg hneg, BitVec.ofInt_toInt]

section
variable {s : State}

theorem State.revolPast_iff : s.revolPast = true ↔ 4 < s.revolDelta.toInt ∨ s.revolDelta.toInt < -4 := by
  simp [State.revolPast, Config.revolGuard, BitVec.slt_eq_decide]

/-- Within the guard the totals keep their values. -/
theorem State.totalRevolutions_within (h : s.revolPast = false) : s.totalRevolutions = s := by
  simp [State.totalRevolutions, State.when, h]

/-- Past the guard the total grows by the distance, and the reference follows the counter. -/
theorem State.word_totalRevolutions_past (hwf : s.regs.wf = true) (h : s.revolPast = true) (n : Nat) :
    s.totalRevolutions.word n = if n = 326 then s.word 325
      else if n = 327 then s.word 327 + BitVec.ofInt 32 s.revolDelta.toInt.natAbs else s.word n := by
  rw [State.totalRevolutions, State.when, if_pos h,
    State.word_copy (State.wf_set hwf _ _) _ _ _ (by decide) (by decide),
    State.word_setAny hwf _ _ _ (by decide) (by decide), State.word_setAny hwf _ _ _ (by decide) (by decide),
    I32.abs_eq_ofInt_natAbs]
  rfl

end

/-- Settles O47: the counter takes the wrap, and the guard is tested on its new distance. -/
theorem revolutionGuard : Obligations.RevolutionGuard := by
  unfold Obligations.RevolutionGuard
  intro s hsound r d
  have hwf := State.wf_of_sound hsound
  have hcount := State.word_setAny hwf Reg.lu_revol r (hk := .inr rfl) (hr := by decide)
  have hwf1 := State.wf_set hwf Reg.lu_revol r
  have hdelta : (s.set Reg.lu_revol r).revolDelta = d := congrArg₂ (· - ·) (hcount 325) (hcount 326)
  have hrevolutions : s.revolutions = (s.set Reg.lu_revol r).totalRevolutions := rfl
  rw [hrevolutions]
  generalize s.set Reg.lu_revol r = t at *
  have hguard := State.revolPast_iff (s := t)
  rw [hdelta] at hguard
  cases hpast : t.revolPast with
  | false =>
    rw [if_neg (by rw [← hguard, hpast]; decide), State.totalRevolutions_within hpast]
    exact ⟨hcount 325, ⟨hcount 327, hcount 326⟩, fun n hn => (hcount n).trans (if_neg (by simp_all))⟩
  | true =>
    have htotal := State.word_totalRevolutions_past hwf1 hpast
    rw [hdelta] at htotal
    rw [if_pos (hguard.mp hpast)]
    refine ⟨(htotal 325).trans (hcount 325), ⟨(htotal 327).trans (congrArg (· + _) (hcount 327)),
      (htotal 326).trans (hcount 325)⟩, fun n hn => ?_⟩
    simp only [List.mem_cons, List.not_mem_nil, or_false, not_or] at hn
    obtain ⟨h325, h326, h327⟩ := hn
    rw [htotal, if_neg h326, if_neg h327, hcount, if_neg h325]

end Sys2Proof.Machine

/-!
PROOFS. The modes and the zone that a TICK does not leave (spec/42_lu_fsm.md R240; spec/43_observers.md R285, R286,
R288): what a step of the command FSM can do to the lookup FSM (spec/47_command_fsm.md R430, R440-R451), and what the
lookup step keeps while its zone is LOCKED.
-/

namespace Sys2Proof.Machine

/-! ### The procedures keep the lookup mode (47 R440-R447)

`procRegs` holds the mode for HALT's sake; no micro-program of the command FSM but those of HALT, LU_INITIATE and
LU_SHUTDOWN writes it. One lemma an operation, as a rewriting rule for the register's word. -/

section
variable {s : State}

@[simp] theorem State.set_mode {r : Reg} (hr : r.num ≠ 320) (w : Word) : (s.set r w).word 320 = s.word 320 :=
  State.word_set_other hr.symm (fun _ => by decide)

@[simp] theorem State.setF_mode {r : Reg} (hr : r.num ≠ 320) (v : F32) : (s.setF r v).word 320 = s.word 320 :=
  State.word_setF_other r.num r.kind v hr.symm (by decide)

@[simp] theorem State.copy_mode {r : Reg} (hr : r.num ≠ 320) (other : Reg) : (s.copy r other).word 320 = s.word 320 :=
  State.set_mode hr _

@[simp] theorem State.when_mode {c : Bool} {f : State → State} (hf : ∀ u : State, (f u).word 320 = u.word 320) :
    (s.when c f).word 320 = s.word 320 := State.word_when fun _ => hf s

theorem State.bindOr_mode {α : Type} (why : Fault) (v : Option α) {k : α → State}
    (hk : ∀ a, (k a).word 320 = s.word 320) : (s.bindOr why v k).word 320 = s.word 320 := by
  cases v with
  | some a => exact hk a
  | none => rfl

@[simp] theorem State.countThen_mode {done : State → State} (hd : ∀ u : State, (done u).word 320 = u.word 320) :
    (s.countThen done).word 320 = s.word 320 := by
  unfold State.countThen State.count1
  split <;> simp [hd]

@[simp] theorem State.enterState_mode (q : FsmState) : (s.enterState q).word 320 = s.word 320 :=
  (State.reach_enterState q).word 320 (by decide)

@[simp] theorem State.nextPhase_mode (p n : I32) : (s.nextPhase p n).word 320 = s.word 320 := by
  simp [State.nextPhase]

@[simp] theorem State.raise_mode (e : Errno) (early : Bool) : (s.raise e early).word 320 = s.word 320 :=
  (State.reach_raise e early).word 320 (by decide)

@[simp] theorem State.emitDuty_mode (d : Legs I32) : (s.emitDuty d).word 320 = s.word 320 :=
  (State.reach_emitDuty d).word 320 (by decide)

@[simp] theorem State.emitZ_mode (m : Word) : (s.emitZ m).word 320 = s.word 320 := by
  have hflags : ∀ (u : State) (i : Nat), i < 3 → (u.zFlags m i).word 320 = u.word 320 := fun _ _ hi =>
    State.word_zFlags_ne m hi (.inr (by decide))
  rw [State.emitZ, hflags _ 2 (by decide), hflags _ 1 (by decide), hflags _ 0 (by decide), State.set_mode (by decide)]
  rfl

@[simp] theorem State.pmVoltage_mode (u F : Vec2) : (s.pmVoltage u F).word 320 = s.word 320 :=
  (State.reach_pmVoltage u F).word 320 (by decide)

@[simp] theorem State.setAcc_mode (i : Nat) (v : F32) : (s.setF (Reg.fsm_acc i) v).word 320 = s.word 320 :=
  State.setF_mode (by dsimp only; omega) v

@[simp] theorem State.clearAcc_mode (idx : List Nat) : (s.clearAcc idx).word 320 = s.word 320 := by
  unfold State.clearAcc
  induction idx generalizing s with
  | nil => rfl
  | cons i is ih => exact ih.trans (State.set_mode (r := Reg.fsm_acc i) (by dsimp only; omega) 0)

@[simp] theorem State.dftAcc_mode (i : Nat) (x : F32) : (s.dftAcc i x).word 320 = s.word 320 := by
  simp [State.dftAcc, State.setAccPair]

/-! #### Controls and stages (47 R444, R453) -/

/-- A `control()` that keeps the mode if its continuation does. -/
def Control.KeepsMode (c : Control) : Prop :=
  ∀ (s : State) (k : State → State), (∀ u : State, (k u).word 320 = u.word 320) → (c s k).word 320 = s.word 320

theorem State.probeReg_mode (t : Vec2) {k : State → State} (hk : ∀ u : State, (k u).word 320 = u.word 320) :
    (s.probeReg t k).word 320 = s.word 320 := by
  have hdrive : (s.probeDrive t).word 320 = s.word 320 := by
    simp [State.probeDrive, State.pmVoltageXY, State.probeIntegrate, State.setAccPair]
  unfold State.probeReg
  split <;> simp [hk, hdrive]

theorem Control.KeepsMode.nothing : Control.KeepsMode controlNothing := fun s _ hk => hk s

theorem Control.KeepsMode.turning (f : State → Vec2) :
    Control.KeepsMode (fun s k => s.probeReg (f s) (fun t => k (t.turnPhasor t.probeTurn))) :=
  fun _ _ hk => State.probeReg_mode _ (fun u => (hk _).trans (by simp [State.turnPhasor, State.setAccPair]))

theorem Control.KeepsMode.adjust : Control.KeepsMode adjustControl := .turning _

theorem Control.KeepsMode.probeL : Control.KeepsMode probeLControl := .turning _

theorem Control.KeepsMode.probeR : Control.KeepsMode probeRControl := fun _ _ hk => State.probeReg_mode _ hk

theorem Control.KeepsMode.settle {c : Control} (hc : Control.KeepsMode c) (A : I32) :
    (s.settle c A).word 320 = s.word 320 := hc s _ (fun u => by simp)

theorem Control.KeepsMode.accumulate {c : Control} (hc : Control.KeepsMode c) {sample finish : State → State}
    (hsample : ∀ u : State, (sample u).word 320 = u.word 320)
    (hfinish : ∀ u : State, (finish u).word 320 = u.word 320) :
    (s.accumulate c sample finish).word 320 = s.word 320 :=
  (hc _ _ (fun _ => State.countThen_mode hfinish)).trans (State.when_mode hsample)

/-! #### Supplied procedures (00 R8, R11) -/

theorem State.procedureAct_mode (p : Procedure) (a : ProcedureAct) : (s.procedureAct p a).word 320 = s.word 320 := by
  cases a with
  | emitZ m => simp [State.procedureAct]
  | emitDuty d => simp [State.procedureAct, State.procedureDrive]
  | voltage u => simp [State.procedureAct, State.procedureDrive, State.pmVoltageXY]
  | write k w =>
    have hregs : ∀ r ∈ procedureRegs p, r.num ≠ 320 := by cases p <;> decide
    rw [State.procedureAct, State.procedureWrite]
    split
    · next r hr => exact State.when_mode fun u => State.set_mode (hregs r (List.mem_of_getElem? hr)) w
    · rfl
  | raise code =>
    rw [State.procedureAct, State.procedureRaise]
    split
    · exact State.raise_mode _ _
    · rfl
  | toHalt => exact State.enterState_mode _
  | toIdle => exact State.enterState_mode _

theorem State.procedureActs_mode (p : Procedure) (n : Nat) : (s.procedureActs p n).word 320 = s.word 320 := by
  induction n generalizing s with
  | zero => rfl
  | succ n ih => exact ih.trans (State.procedureAct_mode p _)

/-- A configuration function keeps the mode if its reference form does. -/
theorem State.runChoice_mode (c : Choice) (p : Procedure) {reference : State → State}
    (h : (reference s).word 320 = s.word 320) : (s.runChoice c p reference).word 320 = s.word 320 := by
  cases c with
  | reference => exact h
  | supplied => exact State.procedureActs_mode p _

/-! #### The reference forms -/

theorem State.probeStart_mode (idx : List Nat) : (s.probeStart idx).word 320 = s.word 320 := by
  simp [State.probeStart]

theorem State.phasorStart_mode : s.phasorStart.word 320 = s.word 320 := by
  simp [State.phasorStart, State.unitFrame]

theorem State.runZeroDrift_mode : s.runZeroDrift.word 320 = s.word 320 := by
  have hfinish : ∀ u : State, u.zdFinish.word 320 = u.word 320 := fun u => by
    unfold State.zdFinish State.done State.storeOffsets
    split_ifs <;> simp
  have hsample : ∀ u : State, u.zdSample.word 320 = u.word 320 := fun u => by simp [State.zdSample, State.addAcc]
  unfold State.runZeroDrift
  split_ifs
  · exact (Control.KeepsMode.nothing.settle 2).trans (by simp)
  · exact Control.KeepsMode.nothing.settle 2
  · exact Control.KeepsMode.nothing.accumulate hsample hfinish
  · rfl

theorem State.pstClassify_mode : s.pstClassify.word 320 = s.word 320 := by
  unfold State.pstClassify State.done
  split_ifs <;> simp

theorem State.pstPulse_mode (k : Nat) : (s.pstPulse k).word 320 = s.word 320 := by
  unfold State.pstPulse
  split_ifs
  · simp [State.pstDrive]
  · exact State.countThen_mode fun u =>
      (State.when_mode fun _ => State.pstClassify_mode).trans (by simp [State.pstSample])

theorem State.runPowerStageTest_mode : s.runPowerStageTest.word 320 = s.word 320 := by
  refine State.runChoice_mode _ _ ?_
  unfold State.pstReference
  split_ifs
  · unfold State.pstStart
    split_ifs
    · exact (State.pstPulse_mode 0).trans (by simp)
    · exact State.raise_mode _ _
  · exact State.pstPulse_mode _
  · exact State.pstClassify_mode
  · rfl

theorem State.adjustFinish_mode : s.adjustFinish.word 320 = s.word 320 := by
  unfold State.adjustFinish State.done State.storeGains
  split_ifs
  · simp
  · exact State.bindOr_mode _ _ fun m => by split_ifs <;> simp

theorem State.runAdjustCurrent_mode : s.runAdjustCurrent.word 320 = s.word 320 := by
  have hsample : ∀ u : State, u.adjustSample.word 320 = u.word 320 := fun u => by simp [State.adjustSample]
  refine State.runChoice_mode _ _ ?_
  unfold State.adjustReference
  split_ifs
  · exact (Control.KeepsMode.adjust.settle 2).trans (State.phasorStart_mode.trans (State.probeStart_mode _))
  · exact Control.KeepsMode.adjust.settle 2
  · exact Control.KeepsMode.adjust.accumulate hsample (fun _ => State.adjustFinish_mode)
  · rfl

theorem State.runProbeR_mode : s.runProbeR.word 320 = s.word 320 := by
  have hsample : ∀ u : State, u.probeRSample.word 320 = u.word 320 := fun u => by
    simp [State.probeRSample, State.addAcc]
  have hfinish : ∀ u : State, u.probeRFinish.word 320 = u.word 320 := fun u => by
    unfold State.probeRFinish State.done
    split_ifs <;> simp
  refine State.runChoice_mode _ _ ?_
  unfold State.probeRReference
  split_ifs
  · exact (Control.KeepsMode.probeR.settle 2).trans (State.probeStart_mode _)
  · exact Control.KeepsMode.probeR.settle 2
  · exact Control.KeepsMode.probeR.accumulate hsample hfinish
  · rfl

theorem State.runProbeL_mode : s.runProbeL.word 320 = s.word 320 := by
  have hsample : ∀ u : State, u.probeLSample.word 320 = u.word 320 := fun u => by
    unfold State.probeLSample
    split_ifs <;> simp
  have hmiddle : ∀ u : State, u.probeLMiddle.word 320 = u.word 320 := fun u => by
    unfold State.probeLMiddle State.done
    split_ifs <;> simp
  have hfinish : ∀ u : State, u.probeLFinish.word 320 = u.word 320 := fun u => by
    unfold State.probeLFinish State.done
    split_ifs <;> simp
  refine State.runChoice_mode _ _ ?_
  unfold State.probeLReference
  split_ifs
  · exact (Control.KeepsMode.probeL.settle 2).trans (State.phasorStart_mode.trans (State.probeStart_mode _))
  · exact Control.KeepsMode.probeL.settle 2
  · exact Control.KeepsMode.probeL.accumulate hsample hmiddle
  · exact Control.KeepsMode.probeL.settle 4
  · exact Control.KeepsMode.probeL.accumulate hsample hfinish
  · rfl

theorem State.runProbeE_mode : s.runProbeE.word 320 = s.word 320 := by
  have hsample : ∀ u : State, u.probeESample.word 320 = u.word 320 := fun u => by
    simp [State.probeESample, State.addAcc]
  have hfinish : ∀ u : State, u.probeEFinish.word 320 = u.word 320 := fun u => by
    unfold State.probeEFinish
    split_ifs <;> simp
  refine State.runChoice_mode _ _ ?_
  unfold State.probeEReference
  split_ifs
  · exact (Control.KeepsMode.nothing.settle 2).trans (by simp)
  · exact Control.KeepsMode.nothing.settle 2
  · exact Control.KeepsMode.nothing.accumulate hsample hfinish
  · rfl

end

/-! ### What one step of the command FSM does to the lookup FSM (47 R430, R449-R451) -/

/-- The command FSM's step keeps the lookup mode, its timer and the zone, or it ends in HALT with the lookup FSM
disabled, or it was LU_INITIATE, which enters DETACHED with the timer at 0. -/
inductive State.FsmResult (s t : State) : Prop where
  | kept (mode : t.word 320 = s.word 320) (timer : t.word 324 = s.word 324) (zone : t.word 347 = s.word 347)
  | halted (mode : t.word 320 = 0) (halt : t.word 464 = FsmState.halt.code) (zone : t.word 347 = s.word 347)
  | initiated (state : s.word 464 = FsmState.luInitiate.code) (mode : t.word 320 = LuMode.detached.code)
      (timer : t.word 324 = 0)

section
variable {s : State}

/-- A micro-program that keeps the mode. -/
theorem State.FsmResult.of_mode {W : Ranges} {F : List Fault} {t : State} (hmode : t.word 320 = s.word 320)
    (hreach : State.Reach W F s t) (hW : (W.has 324 || W.has 347) = false := by decide) : State.FsmResult s t := by
  rw [Bool.or_eq_false_iff] at hW
  exact .kept hmode (hreach.word 324 hW.1) (hreach.word 347 hW.2)

/-- HALT's phase 0, when HALT is the state and no duty has gone out. -/
theorem State.fsmResult_haltEntry (hs : s.sound = true) (he : s.tl.emitted = false)
    (hhalt : s.word 464 = FsmState.halt.code) : State.FsmResult s s.haltEntry :=
  have hentered := State.haltEntered hs he
  .halted hentered.mode (hentered.state.trans hhalt) (State.reach_haltEntry_any.word 347 (by decide))

theorem State.fsmResult_runHalt (hs : s.sound = true) (he : s.tl.emitted = false)
    (hhalt : s.word 464 = FsmState.halt.code) : State.FsmResult s s.runHalt := by
  have hreturn : State.Reach fsmRegs [] s s.haltReturn := State.reach_haltReturn
  unfold State.runHalt
  split_ifs
  · exact State.fsmResult_haltEntry hs he hhalt
  · exact .of_mode (hreturn.word 320 (by decide)) hreturn
  · exact .kept rfl rfl rfl

/-- LU_SHUTDOWN enters HALT and runs its phase 0. -/
theorem State.fsmResult_runShutdown (hs : s.sound = true) (he : s.tl.emitted = false) :
    State.FsmResult s s.runShutdown := by
  have henter : State.Reach fsmRegs [] s (s.enterState .halt) := State.reach_enterState _
  unfold State.runShutdown
  split_ifs
  · have hentered := State.haltEntered (henter.sound hs) ((henter.quiet (by simp)).trans he)
    exact .halted hentered.mode (hentered.state.trans (State.word_enterState (State.wf_of_sound hs) _).1)
      ((State.reach_haltEntry_any.word 347 (by decide)).trans (henter.word 347 (by decide)))
  · exact .kept rfl rfl rfl

theorem State.fsmResult_runInitiate (hs : s.sound = true) (hstate : s.word 464 = FsmState.luInitiate.code) :
    State.FsmResult s s.runInitiate := by
  have hreset : State.Reach initiateRegs [] s s.estimatorReset.sensorsReset.loopsReset :=
    (State.reach_estimatorReset.trans State.reach_sensorsReset).andThen State.reach_loopsReset
  unfold State.runInitiate
  split_ifs
  · have hwf := State.wf_of_sound (hreset.sound hs)
    generalize s.estimatorReset.sensorsReset.loopsReset = u at *
    have hwf1 := State.wf_set hwf Reg.lu_mode LuMode.detached.code
    have htail : ∀ v : State, State.Reach [(288, 300), (354, 354), (464, 465), (468, 469)] [] v
        (((v.set Reg.flux_detach_tm 0).emitZ 7).enterState .idle) := fun v =>
      (((State.Reach.refl _ _ v).setConst _ _).andThen (State.reach_emitZ 7 (by decide))).andThen
        (State.reach_enterState _)
    have hword : ∀ n, ((u.set Reg.lu_mode LuMode.detached.code).set Reg.lu_tm 0).word n =
        if n = 324 then 0 else if n = 320 then LuMode.detached.code else u.word n := fun n => by
      rw [State.word_setLegal hwf1 (by decide) (by decide), State.word_setLegal hwf (by decide) (by decide)]
    exact .initiated hstate (((htail _).word 320 (by decide)).trans (hword 320))
      (((htail _).word 324 (by decide)).trans (hword 324))
  · exact .kept rfl rfl rfl

theorem State.fsmResult_runState (hs : s.sound = true) (he : s.tl.emitted = false) : State.FsmResult s s.runState := by
  obtain ⟨q, hq⟩ := State.fsm_exists (n := 464) (by decide +kernel) hs
  have hrun : FsmState.ofWord (s.word Reg.fsm_state.num) = some q := by
    rw [show s.word Reg.fsm_state.num = q.code from hq, FsmState.ofWord_code]
  rw [State.runState, hrun]
  cases q with
  | idle => exact .kept rfl rfl rfl
  | zeroDrift => exact .of_mode State.runZeroDrift_mode State.reach_runZeroDrift
  | powerStageTest => exact .of_mode State.runPowerStageTest_mode State.reach_runPowerStageTest
  | adjustCurrent => exact .of_mode State.runAdjustCurrent_mode State.reach_runAdjustCurrent
  | probeConstR => exact .of_mode State.runProbeR_mode State.reach_runProbeR
  | probeConstL => exact .of_mode State.runProbeL_mode State.reach_runProbeL
  | luInitiate => exact State.fsmResult_runInitiate hs hq
  | luShutdown => exact State.fsmResult_runShutdown hs he
  | probeConstE => exact .of_mode State.runProbeE_mode State.reach_runProbeE
  | probeConstJ => exact .of_mode (State.reach_runProbeJ.word 320 (by decide)) State.reach_runProbeJ
  | halt => exact State.fsmResult_runHalt hs he hq

/-- The state that runs is the one that ran, or the one requested. -/
theorem State.consumeRequest_state (hs : s.sound = true) :
    s.consumeRequest.word 464 = s.word 464 ∨ s.consumeRequest.word 464 = s.word 466 := by
  obtain ⟨q, hq⟩ := State.fsm_exists (n := 466) (by decide +kernel) hs
  have hslot : s.word Reg.fsm_req.num = q.code := hq
  have hwf := State.wf_set (State.wf_of_sound hs) Reg.fsm_req 0
  have hempty : (s.set Reg.fsm_req 0).word 464 = s.word 464 := State.word_set_other (by decide) nofun
  unfold State.consumeRequest State.takeRequest State.when
  rw [hslot, FsmState.ofWord_code]
  dsimp only
  split_ifs with hnone hhalt
  · exact .inl rfl
  · subst hhalt
    exact .inr (State.word_enterState hwf .halt).1
  · exact .inl hempty
  · exact .inr (State.word_enterState (State.wf_set hwf _ _) q).1
  · exact .inl hempty

/-- The effect of the state that runs in this tick, after the request is taken. -/
theorem State.fsmResult_fsmStep (hs : s.sound = true) (he : s.tl.emitted = false) :
    State.FsmResult s.consumeRequest s.fsmStep := by
  have hconsume : State.Reach consumeRegs [] s s.consumeRequest := State.reach_consumeRequest
  exact State.fsmResult_runState (hconsume.sound hs) ((hconsume.quiet (by simp)).trans he)

/-- A wait in DETACHED goes on, from 0 after LU_INITIATE, or ends in HALT. -/
theorem State.fsmStep_waitsDetached (hs : s.sound = true) (he : s.tl.emitted = false)
    (hmode : s.word 320 = LuMode.detached.code) (htimer : (s.word 324).toNat < (s.word 81).toNat) :
    s.fsmStep.WaitsDetached ∨ (s.fsmStep.word 320 = 0 ∧ s.fsmStep.word 464 = FsmState.halt.code) := by
  have hconsume : State.Reach consumeRegs [] s s.consumeRequest := State.reach_consumeRequest
  have hreach := State.reach_fsmStep hs
  have hstartup : s.fsmStep.word 81 = s.word 81 := hreach.word 81 (by decide)
  cases State.fsmResult_fsmStep hs he with
  | kept hmode' htimer' _ =>
    refine .inl (State.waitsDetached_of_lt (hreach.sound hs) ?_ ?_)
    · rw [hmode', hconsume.word 320 (by decide), hmode]
    · rwa [htimer', hconsume.word 324 (by decide), hstartup]
  | halted hmode' hhalt _ => exact .inr ⟨hmode', hhalt⟩
  | initiated _ hmode' htimer' =>
    refine .inl (State.waitsDetached_of_lt (hreach.sound hs) hmode' ?_)
    rw [htimer', hstartup]
    exact Nat.zero_lt_of_lt htimer

/-- Without LU_INITIATE the zone stands, and so does the mode unless HALT disables it. -/
theorem State.fsmStep_notInitiating (hs : s.sound = true) (he : s.tl.emitted = false)
    (hstate : s.word 464 ≠ FsmState.luInitiate.code) (hreq : s.word 466 ≠ FsmState.luInitiate.code) :
    s.fsmStep.word 347 = s.word 347 ∧ (s.fsmStep.word 320 = s.word 320 ∨ s.fsmStep.word 320 = 0) := by
  have hconsume : State.Reach consumeRegs [] s s.consumeRequest := State.reach_consumeRequest
  have hzone := hconsume.word 347 (by decide)
  cases State.fsmResult_fsmStep hs he with
  | kept hmode _ hzone' => exact ⟨hzone'.trans hzone, .inl (hmode.trans (hconsume.word 320 (by decide)))⟩
  | halted hmode _ hzone' => exact ⟨hzone'.trans hzone, .inr hmode⟩
  | initiated hinitiate _ _ =>
    rcases State.consumeRequest_state hs with hkept | htaken
    · exact absurd (hkept.symm.trans hinitiate) hstate
    · exact absurd (htaken.symm.trans hinitiate) hreq

end

/-! ### The lookup step with its zone LOCKED (42 R231, R240; 43 R285, R286, R288) -/

section
variable {s : State}

theorem State.zoneIs_of_locked (h : s.word 347 = Zone.locked.code) (z : Zone) : s.zoneIs z = decide (z = .locked) := by
  unfold State.zoneIs
  rw [h]
  cases z <;> rfl

/-- A lock guard's flip lowers the zone from HIGH only. -/
theorem State.reach_lockFlip_locked (h : s.word 347 = Zone.locked.code) : State.Reach fluxRegs [] s s.lockFlip := by
  have hkept : ∀ u : State, u.when (s.zoneIs .high) (·.setZone .uncertain) = u := fun u => by
    simp [State.when, State.zoneIs_of_locked h]
  rw [State.lockFlip, hkept]
  unfold State.negVec
  exact ((((((State.Reach.refl _ _ s).setVec _ _).setF _ _).setVec _ _).setVec _ _).clear _).clear _ |>.setAny _ _

theorem State.reach_lockGuard_locked (h : s.word 347 = Zone.locked.code) : State.Reach fluxRegs [] s s.lockGuard := by
  have hfilter : State.Reach fluxRegs [] s s.bareFilter := (State.Reach.refl _ _ s).setF _ _
  have hcheck : State.Reach fluxRegs [] s.bareFilter s.bareFilter.lockCheck := by
    unfold State.lockCheck State.when
    split
    · exact State.reach_lockFlip_locked ((hfilter.word 347 (by decide)).trans h)
    · exact .refl _ _ _
  refine State.Reach.copyVec (t := s.when (s.posF Reg.dT) (fun t => t.bareFilter.lockCheck)) ?_ _ _
  unfold State.when
  split
  · exact hfilter.trans hcheck
  · exact .refl _ _ s

/-- No classifier moves a LOCKED zone. -/
theorem State.reach_estimatorBackground_locked (h : s.word 347 = Zone.locked.code) :
    State.Reach fluxRegs [] s s.estimatorBackground := by
  have hortega : State.Reach fluxRegs [] s s.ortegaStep := State.reach_ortegaStep
  have hkalman : State.Reach fluxRegs [] s s.kalmanCorrect := State.reach_kalmanCorrect
  have hstep : ∀ {t : State}, State.Reach fluxRegs [] s t → t.zoneStep = t ∧ t.zoneDetached = t := fun ht => by
    have hlocked := State.zoneIs_of_locked ((ht.word 347 (by decide)).trans h) .locked
    exact ⟨if_pos hlocked, if_pos hlocked⟩
  have hrun : State.Reach fluxRegs [] s (if s.modeIs .detached then s.ortegaStep.zoneDetached else s.estimatorRun) := by
    unfold State.estimatorRun State.dropZone
    rw [State.zoneIs_of_locked h]
    split_ifs
    · rwa [(hstep hortega).2]
    · rwa [(hstep hortega).1]
    · rwa [(hstep hkalman).1]
    · exact .refl _ _ s
  unfold State.estimatorBackground State.when
  split
  · exact hrun.trans (State.reach_lockGuard_locked ((hrun.word 347 (by decide)).trans h))
  · exact hrun

theorem State.luUpdate_locked (h : s.word 347 = Zone.locked.code) : s.luUpdate.word 347 = Zone.locked.code := by
  have hprevious : State.Reach [(330, 332)] [] s ((s.copyVec Reg.lu_Fp Reg.lu_F).copy Reg.lu_wS_prev Reg.lu_wS) :=
    ((State.Reach.refl _ _ s).copyVec _ _).copy _ _
  have hbackground := State.reach_estimatorBackground_locked ((hprevious.word 347 (by decide)).trans h)
  have htrackers : ∀ u : State, State.Reach trackerRegs [] u u.sensorTrackers := fun _ => State.reach_sensorTrackers
  have htail : ∀ u : State, State.Reach [(336, 338), (392, 398)] [] u
      ((u.when (s.modeIs .onHfi) (·.hfiDemod.hfiDemand)).when (s.modeIs .forced) (·.forcedUpdate)) := fun u =>
    ((State.Reach.refl _ _ u).when _ _ (fun v =>
      ((State.Reach.refl _ _ v).andThen State.reach_hfiDemod).andThen State.reach_hfiDemand)).when _ _
        (fun v => ((State.Reach.refl _ _ v).setF _ _).setVec _ _)
  exact ((htail _).word 347 (by decide)).trans (((htrackers _).word 347 (by decide)).trans
    ((hbackground.word 347 (by decide)).trans ((hprevious.word 347 (by decide)).trans h)))

/-- What a mode change writes; the zone is not among it. -/
abbrev changeModeRegs : Ranges :=
  [(288, 300), (320, 320), (324, 324), (336, 338), (354, 354), (392, 398), (432, 435)]

theorem State.reach_changeMode_keepsZone (m : LuMode) (hm : m ≠ .sensorSincos) :
    State.Reach changeModeRegs [] s (s.changeMode m) := by
  have hleave : ∀ u : State, State.Reach changeModeRegs [] u u.leaveDetached := fun u =>
    ((State.Reach.refl _ _ u).andThen (State.reach_emitZ 0 (by decide))).clear _
  have henter : ∀ u : State, State.Reach changeModeRegs [] u (u.enterActions m) := fun u => by
    unfold State.enterActions
    split_ifs
    · exact ((State.Reach.refl _ _ u).andThen (State.reach_emitZ 7 (by decide))).setConst _ _
    · exact ((State.Reach.refl _ _ u).copyVec _ _).copy _ _
    · exact (((State.Reach.refl _ _ u).copyVec _ _).copy _ _).setAny _ _
    · exact .refl _ _ u
  exact ((((State.Reach.refl _ _ s).setConst _ _).when _ _ hleave).trans (henter _)).set Reg.lu_mode _
    (fun _ _ => LuMode.code_legal hm)

/-- DETACHED does not lock a second time, and no mode change moves the zone. -/
theorem State.transition_locked (h : s.word 347 = Zone.locked.code) : s.transition.word 347 = Zone.locked.code := by
  unfold State.transition
  split
  · next m hm => exact ((State.reach_changeMode_keepsZone m (State.edge_ne_sincos hm)).word 347 (by decide)).trans h
  · rw [State.locksNow, State.zoneIs_of_locked h]
    simpa [State.when] using h

theorem State.reach_luFollow_keepsMode : State.Reach luFollowRegs [.illegalCode] s s.luFollow :=
  (State.Reach.refl _ _ s).bindOr _ _ _ (fun _ => by decide) (fun c _ =>
    (((State.reach_blend_keepsMode c).trans State.reach_revolutions_keepsMode).mono.trans
      State.reach_location_keepsMode).trans State.reach_loadTorque_keepsMode.mono)

/-- The end of the lookup step after its transition: the mode and the zone stand. -/
theorem State.word_luFinish {n : Nat} (hfollow : luFollowRegs.has n = false) (h324 : n ≠ 324) (h465 : n ≠ 465) :
    s.luFinish.word n = s.transition.word n := by
  have hcount : ∀ u : State, (u.count1 Reg.lu_tm).word n = u.word n := fun _ =>
    State.word_set_other h324 (fun _ => h465)
  rw [State.luFinish, State.word_when (f := (·.count1 Reg.lu_tm)) fun _ => hcount _]
  exact State.reach_luFollow_keepsMode.word n hfollow

theorem State.luStep_eq (hs : s.sound = true) : s.luStep = s.luUpdate.luFinish := by
  rw [State.luStep, State.sincos_never hs]
  rfl

theorem State.luStep_locked (hs : s.sound = true) (h : s.word 347 = Zone.locked.code) :
    s.luStep.word 347 = Zone.locked.code := by
  rw [State.luStep_eq hs, State.word_luFinish (by decide) (by decide) (by decide)]
  exact State.transition_locked (State.luUpdate_locked h)

/-- A LOCKED DETACHED has no edge (42 R240). -/
theorem State.luStep_locked_detached (hs : s.sound = true) (h : s.word 347 = Zone.locked.code)
    (hmode : s.word 320 = LuMode.detached.code) : s.luStep.word 320 = LuMode.detached.code := by
  have hmode' : s.luUpdate.word 320 = LuMode.detached.code := State.luUpdate_mode.trans hmode
  have hlocked := State.zoneIs_of_locked (State.luUpdate_locked h)
  rw [State.luStep_eq hs, State.word_luFinish (by decide) (by decide) (by decide)]
  generalize s.luUpdate = u at *
  have hedge : u.edge = none := by simp [State.edge, State.modeIs_eq hmode', State.edgeDetached, hlocked]
  have hstill : u.transition = u := by simp [State.transition, hedge, State.locksNow, hlocked, State.when]
  rwa [hstill]

end

/-! ### The rest of a TICK (41 R200, S1 to S5 and S7 to S9) -/

section
variable {s : State}

/-- S7 of an enabled lookup FSM: past its step, only the projection and the drive write. -/
theorem State.word_lookupPart (hs : s.sound = true) (henabled : s.word 320 ≠ 0) {n : Nat}
    (hproject : Ranges.has [(269, 270)] n = false) (hchecked : checkedRegs.has n = false) :
    s.lookupPart.word n = s.luStep.word n := by
  have hmode : ¬ s.modeIs .disabled = true := by simpa [State.modeIs, LuMode.code] using henabled
  have hstep : State.Reach luRegs [] s s.luStep := State.reach_luStep hs (by simpa using hmode)
  have hprojected : State.Reach [(269, 270)] [] s.luStep s.luStep.projectCurrent := State.reach_projectCurrent
  rw [State.lookupPart, if_neg hmode, (State.reach_checkedDrive (hprojected.sound (hstep.sound hs))).word n hchecked,
    hprojected.word n hproject]

theorem State.WaitsDetached.lookupPart (h : s.WaitsDetached) (hs : s.sound = true) :
    s.lookupPart.word 320 = LuMode.detached.code := by
  have hmode : s.word 320 = LuMode.detached.code := beq_iff_eq.mp h.1
  rw [State.word_lookupPart hs (by rw [hmode]; decide) (by decide) (by decide)]
  exact beq_iff_eq.mp (h.luStep hs)

/-- S7 keeps a LOCKED zone, and a LOCKED DETACHED. -/
theorem State.lookupPart_locked (hs : s.sound = true) (h : s.word 347 = Zone.locked.code) :
    s.lookupPart.word 347 = Zone.locked.code ∧
      (s.word 320 = LuMode.detached.code → s.lookupPart.word 320 = LuMode.detached.code) := by
  by_cases hdisabled : s.word 320 = 0
  · rw [State.lookupPart_disabled hdisabled]
    exact ⟨h, id⟩
  · have hword : ∀ n, Ranges.has [(269, 270)] n = false → checkedRegs.has n = false →
        s.lookupPart.word n = s.luStep.word n := fun n => State.word_lookupPart hs hdisabled
    rw [hword 347 (by decide) (by decide), hword 320 (by decide) (by decide)]
    exact ⟨State.luStep_locked hs h, State.luStep_locked_detached hs h⟩

/-- S8 and S9 write the estimator, the request slot and the fault code only. -/
theorem State.word_steps8to9 {n : Nat} (hflux : fluxRegs.has n = false) (hfault : faultRegs.has n = false) :
    s.postponedPart.deferredPart.word n = s.word n :=
  (State.reach_deferredPart.word n hfault).trans (State.reach_postponedPart.word n hflux)

/-- The state S6 starts from. -/
def State.ingested (s : State) (fb : Feedback) : State := (s.measured fb).faultCheck.tvmFilter

theorem State.reach_ingested (fb : Feedback) :
    State.Reach ingestRegs [] s.startOp.openTick (s.ingested fb) := State.reach_ingest fb

theorem State.ingested_sound (hs : s.sound = true) (fb : Feedback) : (s.ingested fb).sound = true :=
  (State.reach_ingested fb).sound (State.sound_start hs)

theorem State.ingested_emitted (fb : Feedback) : (s.ingested fb).tl.emitted = false :=
  (State.reach_ingested fb).quiet (by simp)

theorem State.ingested_word (fb : Feedback) {n : Nat} (hn : ingestRegs.has n = false) :
    (s.ingested fb).word n = s.word n :=
  ((State.reach_ingested fb).word n hn).trans (s.startOp_word n)

/-- The request slot S6 finds: what stood in it, or the HALT of S4. -/
theorem State.ingested_request (hs : s.sound = true) (fb : Feedback) :
    (s.ingested fb).word 466 = s.word 466 ∨ (s.ingested fb).word 466 = FsmState.halt.code := by
  rw [State.ingested, State.reach_tvmFilter.word 466 (by decide), ← s.measured_word fb (n := 466) (by decide)]
  exact State.request_faultCheck (State.measured_sound hs fb)

/-- What a TICK outside a GUARD leaves of a register that S8 and S9 do not write: what S7 left of it. -/
theorem State.word_tick {t : State} {fb : Feedback} (hguard : s.guardOpen = false) (h : exec (.tick fb) s = .next t)
    {n : Nat} (hflux : fluxRegs.has n = false) (hfault : faultRegs.has n = false) :
    t.word n = (s.ingested fb).fsmStep.lookupPart.word n := by
  rw [exec_tick_next hguard h, State.sequence_start, State.closeTick_word, State.word_steps8to9 hflux hfault,
    State.ingested]

end

/-- Settles O31: S6 keeps the wait in DETACHED or ends it in HALT, and while it lasts S7 finds no edge open. -/
theorem detachedUntilStartupTimer : Obligations.DetachedUntilStartupTimer := by
  unfold Obligations.DetachedUntilStartupTimer
  intro s t fb hinv hmode htimer ht
  obtain ⟨hsound, -, hguard, -, -⟩ := s.inv_iff.mp hinv
  have hword : ∀ n, ingestRegs.has n = false → (s.ingested fb).word n = s.word n := fun n => State.ingested_word fb
  have hisound := State.ingested_sound hsound fb
  have hstep := State.fsmStep_waitsDetached hisound (State.ingested_emitted fb) ((hword 320 (by decide)).trans hmode)
    (by rwa [hword 324 (by decide), hword 81 (by decide)])
  rw [State.word_tick hguard ht (n := 320) (by decide) (by decide),
    State.word_tick hguard ht (n := 464) (by decide) (by decide)]
  rcases hstep with hwaits | ⟨hdisabled, hhalt⟩
  · exact .inl (hwaits.lookupPart ((State.reach_fsmStep hisound).sound hisound))
  · rw [State.lookupPart_disabled hdisabled]
    exact .inr ⟨hdisabled, hhalt⟩

/-- Settles O32: S6 leaves the zone, because LU_INITIATE neither runs nor stands in the slot S6 finds, and S7 moves a
LOCKED zone nowhere. -/
theorem lockedZoneStays : Obligations.LockedZoneStays := by
  unfold Obligations.LockedZoneStays
  intro s t fb hinv hzone hstate hreq ht
  obtain ⟨hsound, -, hguard, -, -⟩ := s.inv_iff.mp hinv
  have hword : ∀ n, ingestRegs.has n = false → (s.ingested fb).word n = s.word n := fun n => State.ingested_word fb
  have hisound := State.ingested_sound hsound fb
  have hireq : (s.ingested fb).word 466 ≠ FsmState.luInitiate.code := by
    rcases State.ingested_request hsound fb with hkept | hhalt
    · rwa [hkept]
    · rw [hhalt]; decide
  obtain ⟨hkept, hmode⟩ := State.fsmStep_notInitiating hisound (State.ingested_emitted fb)
    ((hword 464 (by decide)).trans_ne hstate) hireq
  obtain ⟨hlocked, hdetached⟩ := State.lookupPart_locked ((State.reach_fsmStep hisound).sound hisound)
    (hkept.trans ((hword 347 (by decide)).trans hzone))
  rw [State.word_tick hguard ht (n := 347) (by decide) (by decide),
    State.word_tick hguard ht (n := 320) (by decide) (by decide)]
  refine ⟨hlocked, fun hstart => ?_⟩
  rcases hmode with hmode | hdisabled
  · exact .inl (hdetached (hmode.trans ((hword 320 (by decide)).trans hstart)))
  · rw [State.lookupPart_disabled hdisabled]
    exact .inr hdisabled

end Sys2Proof.Machine

/-!
PROOFS. The observers (spec/43_observers.md): the zone classifier and its way to HIGH (R285, R286), the lock guard's
flip (R288), and the EKF's degenerate innovation (R278).
-/

namespace Sys2Proof.Machine

/-! ### The registers of the EKF's covariance and gain (43 R276, R278) -/

section
variable {s : State}

theorem mem_covRegs {n : Nat} : (covRegs.map Reg.num).contains n = true ↔ 360 ≤ n ∧ n ≤ 374 := by
  rw [show covRegs.map Reg.num = List.range' 360 15 from rfl, List.contains_iff_mem, List.mem_range'_1]
  omega

theorem mem_gainRegs {n : Nat} : (gainRegs.map Reg.num).contains n = true ↔ 375 ≤ n ∧ n ≤ 384 := by
  rw [show gainRegs.map Reg.num = List.range' 375 10 from rfl, List.contains_iff_mem, List.mem_range'_1]
  omega

theorem State.word_clear_covRegs (hwf : s.regs.wf = true) (n : Nat) :
    (s.clear covRegs).word n = if 360 ≤ n ∧ n ≤ 374 then 0 else s.word n := by
  rw [State.word_clear hwf (by decide)]
  exact if_congr mem_covRegs rfl rfl

theorem State.word_clear_gainRegs (hwf : s.regs.wf = true) (n : Nat) :
    (s.clear gainRegs).word n = if 375 ≤ n ∧ n ≤ 384 then 0 else s.word n := by
  rw [State.word_clear hwf (by decide)]
  exact if_congr mem_gainRegs rfl rfl

theorem State.gainUpdate_degenerate (h : s.innovationDet.gt F32.zero = false ∨ s.innovationDet.isFinite = false) :
    s.gainUpdate = s.clear gainRegs :=
  if_neg (by rcases h with h | h <;> simp [h])

end

/-- Settles O45: a degenerate innovation only zeroes the gain. -/
theorem degenerateInnovation : Obligations.DegenerateInnovation := by
  unfold Obligations.DegenerateInnovation
  intro s hs hdegenerate
  have hword := State.word_clear_gainRegs (State.wf_of_sound hs)
  rw [← State.gainUpdate_degenerate hdegenerate] at hword
  refine ⟨fun n hn => ?_, fun n hn => ?_⟩
  · rw [hword, if_pos (by dsimp only; omega)]
  · rw [Ranges.has_cons_false] at hn
    rw [hword, if_neg (by omega)]

/-! ### The zone classifier (43 R285) -/

section
variable {s t : State}

/-- Testing the zone of a state whose zone is known. -/
theorem State.zoneIs_eq {z : Zone} (h : s.word 347 = z.code) (y : Zone) : s.zoneIs y = decide (z = y) := by
  unfold State.zoneIs
  rw [h]
  cases z <;> cases y <;> rfl

theorem State.zoneIs_self {z : Zone} (h : s.word 347 = z.code) : s.zoneIs z = true := beq_iff_eq.mpr h

theorem State.word_setZone (hwf : s.regs.wf = true) (z : Zone) (n : Nat) :
    (s.setZone z).word n = if n = 347 then z.code else s.word n :=
  State.word_setLegal hwf (Zone.code_legal z) (by decide) n

/-- `t` is `s` with its zone and the zone's counter at these words. -/
def State.ZoneMoved (s t : State) (zone count : Word) : Prop :=
  ∀ n, t.word n = if n = 347 then zone else if n = 349 then count else s.word n

theorem State.ZoneMoved.refl (s : State) : s.ZoneMoved s (s.word 347) (s.word 349) := by
  intro n
  split_ifs with hzone hcount
  · rw [hzone]
  · rw [hcount]
  · rfl

theorem State.ZoneMoved.setCount (hwf : t.regs.wf = true) {zone count : Word} (h : s.ZoneMoved t zone count) {w : Word}
    (hw : Kind.intLegal w = true) : s.ZoneMoved (t.set Reg.flux_zone_tm w) zone w := by
  intro n
  rw [State.word_setLegal (r := Reg.flux_zone_tm) hwf hw (by decide), h]
  by_cases hn : n = 349
  · subst hn
    rfl
  · simp [hn]

theorem State.ZoneMoved.setZone (hwf : t.regs.wf = true) {zone count : Word} (h : s.ZoneMoved t zone count) (z : Zone) :
    s.ZoneMoved (t.setZone z) z.code count := by
  intro n
  rw [State.word_setZone hwf, h]
  split_ifs <;> rfl

/-- A move into a zone starts its counter anew. -/
theorem State.zoneMoved_reset (hwf : s.regs.wf = true) (z : Zone) :
    s.ZoneMoved ((s.setZone z).set Reg.flux_zone_tm 0) z.code 0 :=
  ((State.ZoneMoved.refl s).setZone hwf z).setCount (State.wf_set hwf _ _) rfl

theorem State.zoneMove_none (hs : s.sound = true) (h : s.word 347 = Zone.none.code) :
    s.ZoneMoved s.zoneMove (if s.zoneAbove then Zone.uncertain.code else Zone.none.code)
      (if s.zoneAbove then 0 else s.word 349) := by
  rw [State.zoneMove, if_pos (State.zoneIs_self h)]
  split_ifs
  · exact State.zoneMoved_reset (State.wf_of_sound hs) _
  · exact h ▸ State.ZoneMoved.refl s

theorem State.zoneMove_uncertain (hs : s.sound = true) (h : s.word 347 = Zone.uncertain.code) :
    s.ZoneMoved s.zoneMove
      (if s.zoneAbove then (if s.reaches Reg.flux_zone_tm Reg.tm_zone then Zone.high.code else Zone.uncertain.code)
        else if s.zoneBelow then Zone.none.code else Zone.uncertain.code)
      (if s.zoneAbove then I32.satInc (s.word 349) else 0) := by
  have hwf := State.wf_of_sound hs
  have hstays : s.ZoneMoved s Zone.uncertain.code (s.word 349) := h ▸ State.ZoneMoved.refl s
  have hcounts : s.ZoneMoved (s.count1 Reg.flux_zone_tm) Zone.uncertain.code (I32.satInc (s.word 349)) :=
    hstays.setCount hwf
      (State.Reach.intLegal_satInc (State.legal_word s hs (n := 349) (k := .intNonNeg) (by decide +kernel)))
  rw [State.zoneMove, State.zoneIs_eq h, if_neg (by decide), State.zoneIs_eq h, if_pos (by decide), State.when]
  split_ifs
  · exact hcounts.setZone (State.wf_set hwf _ _) _
  · exact hcounts
  · exact State.zoneMoved_reset hwf _
  · exact hstays.setCount hwf rfl

theorem State.zoneMove_high (hs : s.sound = true) (h : s.word 347 = Zone.high.code) :
    s.ZoneMoved s.zoneMove (if s.zoneBelow then Zone.uncertain.code else Zone.high.code)
      (if s.zoneBelow then 0 else s.word 349) := by
  rw [State.zoneMove, State.zoneIs_eq h, if_neg (by decide), State.zoneIs_eq h, if_neg (by decide),
    if_pos (State.zoneIs_self h)]
  split_ifs
  · exact State.zoneMoved_reset (State.wf_of_sound hs) _
  · exact h ▸ State.ZoneMoved.refl s

/-- The filter of the speed writes its own register only. -/
theorem State.word_zoneFilter {n : Nat} (hn : n ≠ 348) : s.zoneFilter.word n = s.word n :=
  State.word_setF_ne _ hn (by decide)

theorem State.zoneStep_locked (h : s.word 347 = Zone.locked.code) : s.zoneStep = s := if_pos (State.zoneIs_self h)

theorem State.zoneStep_unlocked {z : Zone} (h : s.word 347 = z.code) (hz : z ≠ .locked) :
    s.zoneStep = s.zoneFilter.zoneMove :=
  if_neg (by simpa [State.zoneIs_eq h] using hz)

/-- The classifier writes the zone, its counter and the filtered speed only. -/
theorem State.agreesOff_zoneStep (hs : s.sound = true) : State.agreesOff [(347, 349)] s s.zoneStep := by
  have hfilter := (State.reach_zoneFilter (s := s)).sound hs
  have hmoved : ∀ {zone count : Word}, s.zoneFilter.ZoneMoved s.zoneFilter.zoneMove zone count →
      State.agreesOff [(347, 349)] s s.zoneFilter.zoneMove := fun hmoved n hn => by
    rw [Ranges.has_cons_false] at hn
    rw [hmoved, if_neg (by omega), if_neg (by omega), State.word_zoneFilter (by omega)]
  have hzone : s.zoneFilter.word 347 = s.word 347 := State.word_zoneFilter (by decide)
  rcases State.zone_cases hs with h | h | h | h
  · rw [State.zoneStep_unlocked (z := .none) h (by decide)]
    exact hmoved (State.zoneMove_none hfilter (hzone.trans h))
  · rw [State.zoneStep_unlocked (z := .uncertain) h (by decide)]
    exact hmoved (State.zoneMove_uncertain hfilter (hzone.trans h))
  · rw [State.zoneStep_unlocked (z := .high) h (by decide)]
    exact hmoved (State.zoneMove_high hfilter (hzone.trans h))
  · rw [State.zoneStep_locked h]
    exact fun _ _ => rfl

theorem F32.isNaN_nan : F32.nan.isNaN = true := by decide

theorem F32.abs_of_isNaN {x : F32} (h : x.isNaN = true) : x.abs = F32.nan := if_pos h

theorem F32.lt_of_isNaN_left {x : F32} (h : x.isNaN = true) (y : F32) : x.lt y = false := by simp [F32.lt, h]

theorem F32.gt_of_isNaN_left {x : F32} (h : x.isNaN = true) (y : F32) : x.gt y = false := by simp [F32.gt, F32.lt, h]

/-- The classifier's speed is a NaN when the speed is one. -/
theorem State.zoneSpeed_isNaN (h : (s.f Reg.flux_wS).isNaN = true) : s.zoneSpeed.isNaN = true := by
  rw [State.zoneSpeed, F32.abs_of_isNaN h, F32.min, F32.isNaN_nan, Bool.or_true, if_pos rfl]
  exact F32.isNaN_nan

end

/-- Settles O43: the case analysis on the zone, from the state after the filter, which keeps the zone and its count. -/
theorem zoneStepTable : Obligations.ZoneStepTable := by
  unfold Obligations.ZoneStepTable
  intro s hs up down n
  have hfilter := (State.reach_zoneFilter (s := s)).sound hs
  have hkept : ∀ k, k ≠ 348 → s.zoneFilter.word k = s.word k := fun k => State.word_zoneFilter
  have hzone := hkept 347 (by decide)
  have hcount := hkept 349 (by decide)
  refine ⟨State.zoneStep_locked, fun h => ?_, fun h => ?_, fun h => ?_, State.agreesOff_zoneStep hs, fun hnan => ?_⟩
  · have hmoved := State.zoneMove_none hfilter (hzone.trans h)
    rw [State.zoneStep_unlocked h (by decide), ← hcount]
    exact ⟨hmoved 347, hmoved 349⟩
  · have hmoved := State.zoneMove_uncertain hfilter (hzone.trans h)
    have hreaches : s.zoneFilter.reaches Reg.flux_zone_tm Reg.tm_zone = (s.i Reg.tm_zone).sle n := by
      unfold State.reaches State.i
      rw [hcount, hkept Reg.tm_zone.num (by decide)]
    rw [hreaches, hcount] at hmoved
    rw [State.zoneStep_unlocked h (by decide)]
    exact ⟨hmoved 347, hmoved 349⟩
  · have hmoved := State.zoneMove_high hfilter (hzone.trans h)
    rw [State.zoneStep_unlocked h (by decide), ← hcount]
    exact ⟨hmoved 347, hmoved 349⟩
  · have hspeed : s.zoneFilter.zoneSpeed.isNaN = true :=
      State.zoneSpeed_isNaN (by rwa [State.f, hkept Reg.flux_wS.num (by decide)])
    exact ⟨F32.gt_of_isNaN_left hspeed _, F32.lt_of_isNaN_left hspeed _⟩

/-! ### The lock guard's flip (43 R288) -/

theorem F32.mag_ofMag {b : Bool} {m : Nat} (h : m < 2147483648) : (F32.ofMag b m).mag = m := by
  unfold F32.mag F32.ofMag
  rw [BitVec.toNat_ofNat]
  split <;> omega

theorem F32.mag_lt (x : F32) : x.mag < 2147483648 := Nat.mod_lt _ (by decide)

theorem F32.isNaN_neg (x : F32) : x.neg.isNaN = x.isNaN := by
  unfold F32.neg
  split
  · next h => rw [h, F32.isNaN_nan]
  · rw [F32.isNaN, F32.mag_ofMag (F32.mag_lt x), F32.isNaN]

section
variable {s t : State}

/-- `t` holds in `r` the negation of what `s` holds there, up to the bits of a NaN. -/
def State.Negated (s t : State) (r : Reg) : Prop :=
  if (s.f r).isNaN then (t.f r).isNaN = true else t.f r = (s.f r).neg

theorem State.negated_setF (hwf : t.regs.wf = true) {k : Nat} (hk : t.word k = s.word k) :
    s.Negated (t.setF ⟨k, .f32⟩ (t.f ⟨k, .f32⟩).neg) ⟨k, .f32⟩ := by
  have hread : t.f ⟨k, .f32⟩ = s.f ⟨k, .f32⟩ := congrArg F32.mk hk
  unfold State.Negated
  rw [hread]
  split
  · next h => exact State.setF_isNaN hwf k ((F32.isNaN_neg _).trans h)
  · next h =>
    refine congrArg F32.mk ((State.word_setF hwf k k ?_).trans (if_pos rfl))
    rw [F32.isNaN_neg]
    simpa using h

theorem State.Negated.of_word {u : State} {r : Reg} (h : s.Negated t r) (hu : u.word r.num = t.word r.num) :
    s.Negated u r := by
  unfold State.Negated State.f at *
  rwa [hu]

/-- The negation of each register of a list of numbers. -/
def State.negate (s : State) : List Nat → State
  | [] => s
  | k :: ks => (s.setF ⟨k, .f32⟩ (s.f ⟨k, .f32⟩).neg).negate ks

theorem State.negate_single (k : Nat) : s.negate [k] = s.setF ⟨k, .f32⟩ (s.f ⟨k, .f32⟩).neg := rfl

theorem State.negate_negate (l m : List Nat) : (s.negate l).negate m = s.negate (l ++ m) := by
  induction l generalizing s with
  | nil => rfl
  | cons k ks ih => exact ih

theorem State.wf_negate (hwf : s.regs.wf = true) (l : List Nat) : (s.negate l).regs.wf = true := by
  induction l generalizing s with
  | nil => exact hwf
  | cons k ks ih => exact ih (State.wf_setF hwf _ _)

theorem State.word_negate_other {l : List Nat} (hl : 464 ∉ l) {n : Nat} (hn : n ∉ l) :
    (s.negate l).word n = s.word n := by
  induction l generalizing s with
  | nil => rfl
  | cons k ks ih =>
    rw [List.mem_cons, not_or] at hl hn
    exact (ih hl.2 hn.2).trans (State.word_setF_ne _ hn.1 (Ne.symm hl.1))

theorem State.negated_negate (hwf : t.regs.wf = true) {l : List Nat} (hl : 464 ∉ l) (hdistinct : l.Nodup)
    (hread : ∀ k ∈ l, t.word k = s.word k) {k : Nat} (hk : k ∈ l) : s.Negated (t.negate l) ⟨k, .f32⟩ := by
  induction l generalizing t with
  | nil => cases hk
  | cons j js ih =>
    rw [List.mem_cons, not_or] at hl
    rw [List.nodup_cons] at hdistinct
    rcases List.mem_cons.mp hk with rfl | hk
    · exact (State.negated_setF hwf (hread _ List.mem_cons_self)).of_word
        (State.word_negate_other hl.2 hdistinct.1)
    · refine ih (State.wf_setF hwf _ _) hl.2 hdistinct.2 (fun i hi => ?_) hk
      exact (State.word_setF_ne (r := ⟨j, .f32⟩) _ (fun heq : i = j => hdistinct.1 (heq ▸ hi)) (Ne.symm hl.1)).trans
        (hread i (List.mem_cons_of_mem _ hi))

/-- Negating a frame or vector is negating its two elements. -/
theorem State.negVec_eq_negate (k : Nat) (hk : k ≠ 464) :
    s.negVec (fun i => ⟨k + i, .f32⟩) = s.negate [k, k + 1] := by
  have hsecond : (s.setF ⟨k, .f32⟩ (s.f ⟨k, .f32⟩).neg).f ⟨k + 1, .f32⟩ = s.f ⟨k + 1, .f32⟩ :=
    congrArg F32.mk (State.word_setF_ne _ (by simp) hk)
  rw [State.negate, State.negate, hsecond]
  rfl

/-- The registers the flip negates: the flux frame, the speed, the flux state and the EKF's current state. -/
abbrev flipRegs : List Nat := [344, 345, 346, 350, 351, 385, 386]

theorem mem_flipRegs {n : Nat} :
    n ∈ flipRegs ↔ (344 ≤ n ∧ n ≤ 346) ∨ (350 ≤ n ∧ n ≤ 351) ∨ (385 ≤ n ∧ n ≤ 386) := by
  simp only [List.mem_cons, List.not_mem_nil, or_false]
  omega

/-- What the flip resets: the EKF's covariance and gain, the bare speed, and a zone that is HIGH. -/
def State.flipReset (s : State) (high : Bool) : State :=
  (((s.clear covRegs).clear gainRegs).set Reg.flux_lpf_bare 0).when high (·.setZone .uncertain)

theorem State.lockFlip_eq : s.lockFlip = (s.negate flipRegs).flipReset (s.zoneIs .high) := by
  have hspeed : (s.negate [344, 345]).f Reg.flux_wS = s.f Reg.flux_wS :=
    congrArg F32.mk (State.word_negate_other (by decide) (by decide))
  rw [State.lockFlip, State.negVec_eq_negate 344 (by decide), ← hspeed, ← State.negate_single,
    State.negVec_eq_negate 350 (by decide), State.negVec_eq_negate 385 (by decide), State.negate_negate,
    State.negate_negate, State.negate_negate]
  rfl

theorem State.word_flipReset (hwf : s.regs.wf = true) (high : Bool) (n : Nat) :
    (s.flipReset high).word n =
      if n = 347 ∧ high = true then Zone.uncertain.code
      else if n = 353 ∨ (360 ≤ n ∧ n ≤ 384) then 0 else s.word n := by
  have hcov := State.wf_clear hwf covRegs
  have hgain := State.wf_clear hcov gainRegs
  have hzeroed : (((s.clear covRegs).clear gainRegs).set Reg.flux_lpf_bare 0).word n =
      if n = 353 ∨ (360 ≤ n ∧ n ≤ 384) then 0 else s.word n := by
    rw [State.word_setAny hgain _ _ _ (.inl rfl) (by decide), State.word_clear_gainRegs hcov,
      State.word_clear_covRegs hwf]
    grind
  unfold State.flipReset State.when
  cases high with
  | true => simp only [if_true, State.word_setZone (State.wf_set hgain _ _), hzeroed, and_true]
  | false => simp only [Bool.false_eq_true, if_false, hzeroed, and_false]

/-- The flip in every register it does not negate. -/
theorem State.word_lockFlip (hwf : s.regs.wf = true) {n : Nat} (hn : n ∉ flipRegs) :
    s.lockFlip.word n =
      if n = 347 ∧ s.word 347 = Zone.high.code then Zone.uncertain.code
      else if n = 353 ∨ (360 ≤ n ∧ n ≤ 384) then 0 else s.word n := by
  rw [State.lockFlip_eq, State.word_flipReset (State.wf_negate hwf _), State.word_negate_other (by decide) hn]
  simp [State.zoneIs]

theorem State.negated_lockFlip (hwf : s.regs.wf = true) {k : Nat} (hk : k ∈ flipRegs) :
    s.Negated s.lockFlip ⟨k, .f32⟩ := by
  have houtside : ∀ j ∈ flipRegs, j ≠ 347 ∧ ¬ (j = 353 ∨ (360 ≤ j ∧ j ≤ 384)) := by decide
  rw [State.lockFlip_eq]
  refine (State.negated_negate hwf (by decide) (by decide) (fun _ _ => rfl) hk).of_word ?_
  rw [State.word_flipReset (State.wf_negate hwf _), if_neg (fun h => (houtside k hk).1 h.1), if_neg (houtside k hk).2]

/-- A speed past the lock threshold is a number. -/
theorem State.isNaN_of_lockFlipped (h : s.lockFlipped = true) : (s.f Reg.flux_wS).isNaN = false := by
  rw [State.lockFlipped, Bool.and_eq_true, Bool.and_eq_true] at h
  obtain ⟨⟨-, hspeed⟩, -⟩ := h
  by_contra hnan
  rw [F32.abs_of_isNaN (by simpa using hnan), F32.gt_of_isNaN_left F32.isNaN_nan] at hspeed
  exact Bool.false_ne_true hspeed

end

/-- Settles O44: the flip negates seven registers, and in every other one it is `State.word_lockFlip`. -/
theorem lockGuardFlip : Obligations.LockGuardFlip := by
  unfold Obligations.LockGuardFlip
  intro s hs
  refine ⟨fun h => if_neg (by simp [h]), fun h => ?_⟩
  have hwf := State.wf_of_sound hs
  have hflip : s.lockCheck = s.lockFlip := if_pos h
  have hnegated : ∀ k ∈ flipRegs, s.Negated s.lockFlip ⟨k, .f32⟩ := fun k => State.negated_lockFlip hwf
  have hspeed := hnegated 346 (by decide)
  rw [State.Negated, if_neg (by rw [State.isNaN_of_lockFlipped h]; decide)] at hspeed
  have hword {n : Nat} (hn : n ∉ flipRegs) := State.word_lockFlip hwf hn
  have hzeroed : ∀ n, n = 353 ∨ (360 ≤ n ∧ n ≤ 384) → s.lockFlip.word n = 0 := fun n hn => by
    rw [hword (by rw [mem_flipRegs]; omega), if_neg (by omega), if_pos hn]
  rw [hflip]
  refine ⟨congrArg F32.bits hspeed, fun i hi r hr => ?_, fun n hn => hzeroed _ (.inr ?_),
    fun n hn => hzeroed _ (.inr ?_), hzeroed 353 (.inl rfl), ?_, fun n hn => ?_⟩
  · have hflipped : ∀ j < 2, ∀ q ∈ [Reg.flux_F j, Reg.flux_X j, Reg.kalman_X j],
        q.num ∈ flipRegs ∧ q = ⟨q.num, .f32⟩ := by decide
    obtain ⟨hnum, hreg⟩ := hflipped i hi r hr
    rw [hreg]
    exact hnegated r.num hnum
  · dsimp only; omega
  · dsimp only; omega
  · rw [hword (by decide)]
    simp
  · simp only [Ranges.has_cons_false] at hn
    obtain ⟨h1, h2, h3, h4, -⟩ := hn
    rw [hword (by rw [mem_flipRegs]; omega), if_neg (by omega), if_neg (by omega)]

/-! ### The zone on its way up (42 R231; 43 R285, R286, R288)

From NONE no classifier climbs past UNCERTAIN, and past the classifiers nothing leads to HIGH. -/

section
variable {s : State}

theorem State.zoneStep_notHigh (hs : s.sound = true) (h : s.word 347 = Zone.none.code) :
    s.zoneStep.word 347 ≠ Zone.high.code := by
  have hmoved := State.zoneMove_none (State.reach_zoneFilter.sound hs) ((State.word_zoneFilter (by decide)).trans h)
  rw [State.zoneStep_unlocked h (by decide), hmoved, if_pos rfl]
  split <;> decide

theorem State.zoneDetached_notHigh (hs : s.sound = true) (h : s.word 347 = Zone.none.code) :
    s.zoneDetached.word 347 ≠ Zone.high.code := by
  have hcounted : State.Reach zoneRegs [] s s.zoneFilter.detachCount :=
    State.reach_zoneFilter.trans State.reach_detachCount
  have hnone : s.zoneFilter.detachCount.zoneIs .none = true := by
    rw [State.detachCount_zone, State.zoneFilter_zone, State.zoneIs_self h]
  rw [State.zoneDetached, State.zoneIs_eq h, if_neg (by decide), State.zoneDetachedMove, if_pos hnone, State.when]
  split
  · rw [State.word_setZone (State.wf_of_sound (hcounted.sound hs)), if_pos rfl]
    decide
  · rw [beq_iff_eq.mp hnone]
    decide

theorem State.dropZone_notHigh (hwf : s.regs.wf = true) (h : s.word 347 = Zone.none.code) :
    s.dropZone.word 347 ≠ Zone.high.code := by
  rw [State.dropZone, State.zoneIs_eq h, State.when, if_pos (by decide), State.word_setZone hwf, if_pos rfl]
  decide

theorem State.lockGuard_notHigh (hs : s.sound = true) (h : s.word 347 ≠ Zone.high.code) :
    s.lockGuard.word 347 ≠ Zone.high.code := by
  have hfilter : State.Reach fluxRegs [] s s.bareFilter := (State.Reach.refl _ _ s).setF _ _
  have hbare : s.bareFilter.word 347 = s.word 347 := hfilter.word 347 (by decide)
  have hcheck : s.bareFilter.lockCheck.word 347 = s.word 347 := by
    rw [State.lockCheck, State.word_when (f := State.lockFlip) fun _ => ?_, hbare]
    rw [State.word_lockFlip (State.wf_of_sound (hfilter.sound hs)) (by decide), hbare, if_neg (fun hh => h hh.2),
      if_neg (by decide)]
  have hcopied : ∀ u : State, (u.copyVec Reg.flux_Fb Reg.flux_F).word 347 = u.word 347 := fun u =>
    ((State.Reach.refl [(355, 356)] [] u).copyVec _ _).word 347 (by decide)
  rwa [State.lockGuard, hcopied, State.word_when (f := fun t => t.bareFilter.lockCheck) fun _ => hcheck]

/-- The estimator's step takes a zone from NONE at most to UNCERTAIN. -/
theorem State.estimatorBackground_notHigh (hs : s.sound = true) (h : s.word 347 = Zone.none.code) :
    s.estimatorBackground.word 347 ≠ Zone.high.code := by
  have hortega : State.Reach fluxRegs [] s s.ortegaStep := State.reach_ortegaStep
  have hkalman : State.Reach fluxRegs [] s s.kalmanCorrect := State.reach_kalmanCorrect
  have hnone : ∀ {t : State}, State.Reach fluxRegs [] s t → t.word 347 = Zone.none.code := fun ht =>
    (ht.word 347 (by decide)).trans h
  have hrun : State.Reach estimatorRegs [] s
      (if s.modeIs .detached then s.ortegaStep.zoneDetached else s.estimatorRun) := by
    split
    · exact ((State.Reach.refl _ _ s).andThen hortega).andThen State.reach_zoneDetached
    · exact State.reach_estimatorRun
  have hclassified : (if s.modeIs .detached then s.ortegaStep.zoneDetached else s.estimatorRun).word 347 ≠
      Zone.high.code := by
    unfold State.estimatorRun
    split_ifs
    · exact State.zoneDetached_notHigh (hortega.sound hs) (hnone hortega)
    · exact State.zoneStep_notHigh (hortega.sound hs) (hnone hortega)
    · exact State.zoneStep_notHigh (hkalman.sound hs) (hnone hkalman)
    · exact State.dropZone_notHigh (State.wf_of_sound hs) h
  unfold State.estimatorBackground State.when
  split
  · exact State.lockGuard_notHigh (hrun.sound hs) hclassified
  · exact hclassified

/-- Past the estimator, the lookup update leaves the zone. -/
theorem State.luUpdate_notHigh (hs : s.sound = true) (h : s.word 347 = Zone.none.code) :
    s.luUpdate.word 347 ≠ Zone.high.code := by
  have hprevious : State.Reach [(330, 332)] [] s ((s.copyVec Reg.lu_Fp Reg.lu_F).copy Reg.lu_wS_prev Reg.lu_wS) :=
    ((State.Reach.refl _ _ s).copyVec _ _).copy _ _
  have htail : ∀ u : State, State.Reach (trackerRegs ++ [(336, 338), (392, 398)]) [] u
      ((u.sensorTrackers.when (s.modeIs .onHfi) (·.hfiDemod.hfiDemand)).when (s.modeIs .forced) (·.forcedUpdate)) :=
    fun u => (((State.Reach.refl _ _ u).andThen State.reach_sensorTrackers).when _ _ (fun v =>
      ((State.Reach.refl _ _ v).andThen State.reach_hfiDemod).andThen State.reach_hfiDemand)).when _ _
        (fun v => ((State.Reach.refl _ _ v).setF _ _).setVec _ _)
  refine ((htail _).word 347 (by decide)).trans_ne (State.estimatorBackground_notHigh (hprevious.sound hs) ?_)
  exact (hprevious.word 347 (by decide)).trans h

theorem State.transition_notHigh (hwf : s.regs.wf = true) (h : s.word 347 ≠ Zone.high.code) :
    s.transition.word 347 ≠ Zone.high.code := by
  unfold State.transition State.when
  split
  · next m hm =>
    exact ((State.reach_changeMode_keepsZone m (State.edge_ne_sincos hm)).word 347 (by decide)).trans_ne h
  · split
    · rw [State.word_setZone hwf, if_pos rfl]
      decide
    · exact h

/-- S7 does not take the zone from NONE or LOCKED to HIGH. -/
theorem State.lookupPart_notHigh (hs : s.sound = true)
    (h : s.word 347 = Zone.none.code ∨ s.word 347 = Zone.locked.code) : s.lookupPart.word 347 ≠ Zone.high.code := by
  rcases h with hnone | hlocked
  · by_cases hdisabled : s.word 320 = 0
    · rw [State.lookupPart_disabled hdisabled, hnone]
      decide
    · rw [State.word_lookupPart hs hdisabled (by decide) (by decide), State.luStep_eq hs,
        State.word_luFinish (by decide) (by decide) (by decide)]
      exact State.transition_notHigh (State.wf_of_sound (State.reach_luUpdate.sound hs))
        (State.luUpdate_notHigh hs hnone)
  · rw [(State.lookupPart_locked hs hlocked).1]
    decide

/-! ### The zone and the command FSM (47 R450) -/

theorem State.estimatorReset_zone (hwf : s.regs.wf = true) : s.estimatorReset.word 347 = Zone.none.code := by
  have hcleared : ∀ {u : State}, u.regs.wf = true → ((u.clear estimatorZeros).clear observerZeros).word 347 = 0 :=
    fun hu => by
      rw [State.word_clear (State.wf_clear hu _) (by decide), if_neg (by decide), State.word_clear hu (by decide),
        if_pos (by decide)]
  refine hcleared ?_
  iterate 7 refine State.wf_unitFrame ?_ _
  exact hwf

/-- LU_INITIATE leaves the zone NONE, or does nothing. -/
theorem State.runInitiate_zone (hwf : s.regs.wf = true) :
    s.runInitiate.word 347 = s.word 347 ∨ s.runInitiate.word 347 = Zone.none.code := by
  have htail : ∀ u : State, State.Reach
      [(288, 300), (320, 320), (324, 324), (354, 354), (400, 403), (409, 416), (422, 428), (432, 438), (444, 445),
        (448, 448), (464, 465), (468, 469)] [] u
      (((((u.sensorsReset.loopsReset.set Reg.lu_mode LuMode.detached.code).set Reg.lu_tm 0).set
        Reg.flux_detach_tm 0).emitZ 7).enterState .idle) := fun u =>
    (((((((((State.Reach.refl _ _ u).unitFrame _).unitFrame _).unitFrame _).clear _).andThen
      State.reach_loopsReset).setConst _ _).setConst _ _).setConst _ _).andThen (State.reach_emitZ 7 (by decide))
        |>.andThen (State.reach_enterState _)
  unfold State.runInitiate
  split
  · exact .inr (((htail _).word 347 (by decide)).trans (State.estimatorReset_zone hwf))
  · exact .inl rfl

theorem State.runState_initiate (h : s.word 464 = FsmState.luInitiate.code) : s.runState = s.runInitiate := by
  rw [State.runState, show s.word Reg.fsm_state.num = FsmState.luInitiate.code from h, FsmState.ofWord_code]

/-- S6 keeps the zone, or LU_INITIATE leaves it NONE. -/
theorem State.fsmStep_zone (hs : s.sound = true) (he : s.tl.emitted = false) :
    s.fsmStep.word 347 = s.word 347 ∨ s.fsmStep.word 347 = Zone.none.code := by
  have hconsume : State.Reach consumeRegs [] s s.consumeRequest := State.reach_consumeRequest
  have hzone := hconsume.word 347 (by decide)
  cases State.fsmResult_fsmStep hs he with
  | kept _ _ hkept => exact .inl (hkept.trans hzone)
  | halted _ _ hkept => exact .inl (hkept.trans hzone)
  | initiated hinitiate _ _ =>
    rw [State.fsmStep, State.runState_initiate hinitiate, ← hzone]
    exact State.runInitiate_zone (State.wf_of_sound (hconsume.sound hs))

end

/-- Settles O33: S6 leaves the zone or resets it to NONE, and S7 takes it from there at most to UNCERTAIN or LOCKED. -/
theorem zoneNeverSkipsToHigh : Obligations.ZoneNeverSkipsToHigh := by
  unfold Obligations.ZoneNeverSkipsToHigh
  intro s t fb hinv hzone ht
  obtain ⟨hsound, -, hguard, -, -⟩ := s.inv_iff.mp hinv
  have hisound := State.ingested_sound hsound fb
  have hkept : (s.ingested fb).word 347 = s.word 347 := State.ingested_word fb (by decide)
  rw [State.word_tick hguard ht (by decide) (by decide)]
  refine State.lookupPart_notHigh ((State.reach_fsmStep hisound).sound hisound) ?_
  rcases State.fsmStep_zone hisound (State.ingested_emitted fb) with hsame | hnone
  · rwa [hsame, hkept]
  · exact .inl hnone

end Sys2Proof.Machine

/-!
PROOFS. The position-sensor trackers (spec/44_sensors.md R323, R326-R329, R332): the count of invalid Hall codes, the
encoder's unwrapped count, and the resolver's revolutions.
-/

namespace Sys2Proof.Machine

/-! ### Invalid Hall codes (44 R323) -/

section
variable {s : State}

theorem hallValid_eq_false {code : Word} (h : code.toNat = 0 ∨ 7 ≤ code.toNat) : hallValid code = false := by
  rw [hallValid, Config.hallCodes, Bool.and_eq_false_iff, Bool.eq_false_iff, Bool.eq_false_iff, ne_eq, ne_eq,
    Nat.ble_eq, Nat.ble_eq]
  omega

/-- A count that saturates at 2^31 - 1 (40 R171). -/
theorem I32.toNat_satInc {e : I32} (he : Kind.intLegal e = true) :
    (I32.satInc e).toNat = min (e.toNat + 1) 2147483647 := by
  have hlt := State.Reach.intLegal_iff.mp he
  have hone : BitVec.toNat (1 : I32) = 1 := rfl
  unfold I32.satInc
  split_ifs with hmax
  · subst hmax
    rfl
  · have hne : e.toNat ≠ 2147483647 := fun hc => hmax (BitVec.eq_of_toNat_eq hc)
    rw [BitVec.toNat_add_of_lt (by omega)]
    omega

theorem State.hallErr_legal (h : s.sound = true) : Kind.intLegal (s.word 403) = true :=
  State.legal_word s h (n := 403) (k := .intNonNeg) (by decide +kernel)

/-- The tenth invalid code in a row. -/
theorem State.hallLimit_iff (h : s.sound = true) :
    Config.hallInvalidLimit.sle (I32.satInc (s.word 403)) = true ↔ 9 ≤ (s.word 403).toNat := by
  have hcount := State.hallErr_legal h
  have hten : BitVec.toInt Config.hallInvalidLimit = 10 := rfl
  have hlt := State.Reach.intLegal_iff.mp (State.Reach.intLegal_satInc hcount)
  rw [BitVec.sle_iff_toInt_le, hten, BitVec.toInt_eq_toNat_of_lt (by omega), I32.toNat_satInc hcount]
  omega

/-- The part of an invalid code's step that every such code takes: the count, and the frame coasting. -/
def State.hallCounted (s : State) : State := (s.count1 Reg.hall_ERR).setVec Reg.hall_F s.hallCoast

theorem State.reach_hallCounted : State.Reach [(400, 401), (403, 403)] [] s s.hallCounted :=
  ((State.Reach.refl _ _ s).count1 _).setVec _ _

theorem State.hallErr_hallCounted (h : s.sound = true) : s.hallCounted.word 403 = I32.satInc (s.word 403) := by
  rw [State.hallCounted, State.setVec, State.word_setF_ne _ (by decide) (by decide),
    State.word_setF_ne _ (by decide) (by decide)]
  exact State.word_set_same (r := Reg.hall_ERR) (State.wf_of_sound h)
    (State.Reach.intLegal_satInc (State.hallErr_legal h))

theorem State.hallStep_invalid (h : s.sound = true)
    (hcode : (s.word Reg.fb_HS.num).toNat = 0 ∨ 7 ≤ (s.word Reg.fb_HS.num).toNat) :
    s.hallStep = if (s.word 403).toNat < 9 then s.hallCounted else s.hallCounted.hallFault := by
  have hstep : s.hallStep = s.hallInvalid := if_neg (by rw [hallValid_eq_false hcode]; decide)
  rw [hstep]
  by_cases hlt : (s.word 403).toNat < 9
  · exact (if_neg (mt (State.hallLimit_iff h).mp (by omega))).trans (if_pos hlt).symm
  · exact (if_pos ((State.hallLimit_iff h).mpr (by omega))).trans (if_neg hlt).symm

/-- The Hall fault writes the sensor selection and the fault registers only. -/
theorem State.reach_hallFault_frame : State.Reach [(4, 4), (466, 467)] [] s s.hallFault :=
  ((State.Reach.refl _ _ s).setConst _ _).andThen (State.reach_raise _ _)

/-- The Hall fault clears the sensor selection, requests HALT, and is recorded where no code stood. -/
theorem State.word_hallFault (h : s.sound = true) :
    s.hallFault.word 4 = 0 ∧ s.hallFault.word 466 = FsmState.halt.code ∧
      (s.word 467 = 0 → s.hallFault.word 467 = Errno.sensorHallFault.code) := by
  have hcleared : State.Reach [(4, 4)] [] s (s.set Reg.config_LU_SENSOR 0) := (State.Reach.refl _ _ s).setConst _ _
  refine ⟨?_, State.request_raise_now (hcleared.sound h) _ (.inr rfl), fun hnone => ?_⟩
  · rw [State.hallFault, (State.reach_raise _ _).word 4 (by decide)]
    exact State.word_set_same (r := Reg.config_LU_SENSOR) (State.wf_of_sound h) rfl
  · rw [State.hallFault, State.errno_raise (State.wf_of_sound (hcleared.sound h)),
      if_pos (.inl ((hcleared.word 467 (by decide)).trans hnone))]

end

/-- Settles O35: every invalid code counts, and with the tenth the fault follows the count. -/
theorem hallFaultOnTenthInvalidCode : Obligations.HallFaultOnTenthInvalidCode := by
  unfold Obligations.HallFaultOnTenthInvalidCode
  intro s hs hcode
  have hcounted := State.reach_hallCounted (s := s)
  have hfault := State.reach_hallFault_frame (s := s.hallCounted)
  rw [State.hallStep_invalid hs hcode]
  split_ifs with hlt
  · exact ⟨State.hallErr_hallCounted hs, hcounted.word⟩
  · obtain ⟨hsensor, hrequest, herrno⟩ := State.word_hallFault (hcounted.sound hs)
    have hframe : State.Reach [(4, 4), (400, 401), (403, 403), (466, 467)] [] s s.hallCounted.hallFault :=
      hcounted.mono.trans hfault.mono
    exact ⟨(hfault.word 403 (by decide)).trans (State.hallErr_hallCounted hs), hsensor, hrequest, hframe.word,
      fun hnone => herrno ((hcounted.word 467 (by decide)).trans hnone)⟩

/-! ### The encoder's remainder and turns (44 R326, 40 R188) -/

section
variable {s : State}

/-- The remainder of a positive divisor is defined and exact. -/
theorem I32.exists_mod {a n : I32} (hn : 0 < n.toInt) : ∃ m, I32.mod a n = some m ∧ m.toInt = a.toInt % n.toInt := by
  have hpos : BitVec.slt (0 : I32) n = true := BitVec.slt_iff_toInt_lt.mpr (by rwa [show (0 : I32).toInt = 0 from rfl])
  refine ⟨_, if_pos hpos, ?_⟩
  have hnonneg := Int.emod_nonneg a.toInt hn.ne'
  have hlt := Int.emod_lt_of_pos a.toInt hn
  have hmax := BitVec.toInt_lt (x := n)
  exact BitVec.toInt_ofInt_eq_self (by decide) (by omega) (by omega)

/-- With the remainder `m` of `c` by `n`, the turns `(c - m) / n` and `m` add up to `c`. -/
theorem turns_mul_add_remainder {c m n : Int} (h : m = c % n) : (c - m) / n * n + m = c := by
  rw [h, Int.ediv_mul_cancel (Int.dvd_self_sub_emod), Int.sub_add_cancel]

theorem State.eppr_pos (h : s.sound = true) (h0 : s.word Reg.eabi_EPPR.num ≠ 0) : 0 < (s.i Reg.eabi_EPPR).toInt := by
  have hnonneg := Kind.intLegal_iff_toInt_nonneg.mp (State.eppr_legal h)
  have hne : (s.i Reg.eabi_EPPR).toInt ≠ 0 := fun hc => h0 (BitVec.eq_of_toInt_eq hc)
  omega

/-! ### The encoder's step (44 R326-R329) -/

/-- Speed, interpolation, frame and location, once the count is unwrapped. -/
def State.abiMotion (s : State) (d : I32) : State := (((s.abiSpeed d).abiInterp d).abiFrame).abiLocation

theorem State.reach_abiMotion (d : I32) : State.Reach [(411, 415)] [] s (s.abiMotion d) := by
  have hinterp : ∀ u : State, State.Reach [(411, 415)] [] u (u.abiInterp d) := fun u => by
    unfold State.abiInterp
    split_ifs
    · exact (State.Reach.refl _ _ u).setF _ _
    · exact (State.Reach.refl _ _ u).setAny _ _
  exact ((((State.Reach.refl _ _ s).when _ _ (fun u => (State.Reach.refl _ _ u).setF _ _)).trans (hinterp _)).setVec
    _ _).setF _ _

theorem State.onlyRecord_abiMotion (d : I32) : s.OnlyRecord (s.abiMotion d) := by
  have hinterp : ∀ u : State, u.OnlyRecord (u.abiInterp d) := fun u => by
    unfold State.abiInterp
    split_ifs
    · exact (State.OnlyRecord.refl u).setF _ _
    · exact (State.OnlyRecord.refl u).setAny _ _
  exact (((((State.OnlyRecord.refl s).when _ _ (fun u => (State.OnlyRecord.refl u).setF _ _)).trans (hinterp _)).setF
    _ _).setF _ _).setF _ _

theorem State.abiUnwrap_eq (d c m : I32) :
    s.abiUnwrap d c m = ((s.set Reg.eabi_revol (s.i Reg.eabi_revol + turnsOf c m (s.i Reg.eabi_EPPR))).set
      Reg.eabi_count m).abiMotion d := rfl

/-- The encoder's registers but its previous sample and its initialization. -/
theorem State.reach_abiUnwrap_frame (d c m : I32) : State.Reach [(409, 415)] [] s (s.abiUnwrap d c m) :=
  (((State.Reach.refl _ _ s).setAny _ _).setAny _ _).andThen (State.reach_abiMotion d)

theorem State.onlyRecord_abiUnwrap (d c m : I32) : s.OnlyRecord (s.abiUnwrap d c m) :=
  (((State.OnlyRecord.refl s).setAny _ _).setAny _ _).trans (State.onlyRecord_abiMotion d)

theorem State.count_abiUnwrap (hwf : s.regs.wf = true) (d c m : I32) : (s.abiUnwrap d c m).i Reg.eabi_count = m := by
  rw [State.abiUnwrap_eq, State.i, (State.reach_abiMotion d).word 409 (by decide)]
  exact State.word_set_same (r := Reg.eabi_count) (State.wf_set hwf _ _) rfl

theorem State.revol_abiUnwrap (hwf : s.regs.wf = true) (d c m : I32) :
    (s.abiUnwrap d c m).i Reg.eabi_revol = s.i Reg.eabi_revol + turnsOf c m (s.i Reg.eabi_EPPR) := by
  rw [State.abiUnwrap_eq, State.i, (State.reach_abiMotion d).word 410 (by decide),
    State.word_set_other (n := 410) (by decide) (by decide)]
  exact State.word_set_same (r := Reg.eabi_revol) hwf rfl

/-- A configured encoder unwraps its count, whose remainder is defined. -/
theorem State.abiAdvance_eq (h : 0 < (s.i Reg.eabi_EPPR).toInt) (d : I32) :
    ∃ m, s.abiAdvance d = s.abiUnwrap d (s.i Reg.eabi_count + d) m ∧
      m.toInt = (s.i Reg.eabi_count + d).toInt % (s.i Reg.eabi_EPPR).toInt := by
  obtain ⟨m, hmod, hm⟩ := I32.exists_mod (a := s.i Reg.eabi_count + d) h
  exact ⟨m, by rw [State.abiAdvance, hmod]; rfl, hm⟩

/-- The encoder with the sample `ep` taken in. -/
def State.abiSampled (s : State) (ep : I32) : State := (s.abiInit ep).set Reg.eabi_EP_prev ep

theorem State.reach_abiSampled (ep : I32) : State.Reach [(408, 409), (416, 416)] [] s (s.abiSampled ep) :=
  ((State.Reach.refl _ _ s).when _ _ (fun u =>
    ((State.Reach.refl _ _ u).when _ _ (fun v => (State.Reach.refl _ _ v).setAny _ _)).setConst _ _)).setAny _ _

theorem State.onlyRecord_abiSampled (ep : I32) : s.OnlyRecord (s.abiSampled ep) :=
  ((State.OnlyRecord.refl s).when _ _ (fun u =>
    ((State.OnlyRecord.refl u).when _ _ (fun v => (State.OnlyRecord.refl v).setAny _ _)).set _ _)).setAny _ _

theorem State.init_abiSampled (hwf : s.regs.wf = true) (ep : I32) : (s.abiSampled ep).word 416 = 1 := by
  rw [State.abiSampled, State.word_set_other (n := 416) (by decide) (by decide), State.abiInit]
  cases hinit : s.flag Reg.eabi_init with
  | true => exact beq_iff_eq.mp hinit
  | false =>
    exact State.word_set_same (r := Reg.eabi_init)
      (State.wf_when hwf _ _ (State.wf_set hwf _ _)) rfl

theorem State.abiStep_unconfigured (h : s.word Reg.eabi_EPPR.num = 0) : s.abiStep = s := if_pos h

/-- A configured encoder takes in a defined sample and advances. -/
theorem State.abiStep_eq (h : 0 < (s.i Reg.eabi_EPPR).toInt) :
    ∃ ep, s.abiStep = (s.abiSampled ep).abiAdvance (s.abiDelta ep) := by
  have hcount : ∃ ep, s.abiCount = some ep := by
    unfold State.abiCount
    split
    · obtain ⟨ep, hmod, -⟩ := I32.exists_mod (a := s.i Reg.fb_EP) h
      exact ⟨ep, hmod⟩
    · exact ⟨_, rfl⟩
  obtain ⟨ep, hep⟩ := hcount
  have hconfigured : s.i Reg.eabi_EPPR ≠ 0 := fun hc => by rw [hc] at h; exact absurd h (by decide)
  exact ⟨ep, by rw [State.abiStep, if_neg hconfigured, hep]; rfl⟩

/-- A step of a configured encoder is an unwrapping of its count after a sample. -/
theorem State.abiStep_eq_abiUnwrap (h : 0 < (s.i Reg.eabi_EPPR).toInt) :
    ∃ ep d c m, s.abiStep = (s.abiSampled ep).abiUnwrap d c m ∧ m.toInt = c.toInt % (s.i Reg.eabi_EPPR).toInt := by
  obtain ⟨ep, hstep⟩ := State.abiStep_eq h
  have heppr : (s.abiSampled ep).i Reg.eabi_EPPR = s.i Reg.eabi_EPPR := (State.reach_abiSampled ep).word 130 (by decide)
  obtain ⟨m, hadvance, hm⟩ := State.abiAdvance_eq (heppr ▸ h) (s.abiDelta ep)
  exact ⟨ep, _, _, m, hstep.trans hadvance, heppr ▸ hm⟩

end

/-- Settles O40: the new count is a remainder of the revolution; the sample taken in marks the encoder initialized. -/
theorem encoderCountInRevolution : Obligations.EncoderCountInRevolution := by
  unfold Obligations.EncoderCountInRevolution
  intro s hs
  refine ⟨State.abiStep_unconfigured, fun h0 => ?_⟩
  have hpos := State.eppr_pos hs h0
  obtain ⟨ep, d, c, m, hstep, hm⟩ := State.abiStep_eq_abiUnwrap hpos
  have hsampled := State.reach_abiSampled (s := s) ep
  have hunwrapped := State.reach_abiUnwrap_frame (s := s.abiSampled ep) d c m
  have hframe : State.Reach [(408, 416)] [] s ((s.abiSampled ep).abiUnwrap d c m) := hsampled.mono.trans hunwrapped.mono
  rw [hstep, State.count_abiUnwrap (State.wf_of_sound (hsampled.sound hs)), hm]
  exact ⟨Int.emod_nonneg _ hpos.ne', Int.emod_lt_of_pos _ hpos,
    (hunwrapped.word 416 (by decide)).trans (State.init_abiSampled (State.wf_of_sound hs) ep),
    ((State.onlyRecord_abiSampled ep).trans (State.onlyRecord_abiUnwrap d c m)).tl,
    hframe.word⟩

/-- Settles O41: `q` is the exact quotient by which the counter of turns has grown. -/
theorem encoderUnwrapIsExact : Obligations.EncoderUnwrapIsExact := by
  unfold Obligations.EncoderUnwrapIsExact
  intro s d hs h0 hexact
  have hwf := State.wf_of_sound hs
  obtain ⟨m, hadvance, hm⟩ := State.abiAdvance_eq (State.eppr_pos hs h0) d
  refine ⟨((s.i Reg.eabi_count + d).toInt - m.toInt) / (s.i Reg.eabi_EPPR).toInt, ?_⟩
  rw [hadvance, State.count_abiUnwrap hwf, ← hexact, turns_mul_add_remainder hm]
  exact ⟨rfl, rfl, State.revol_abiUnwrap hwf _ _ _⟩

/-! ### The resolver's revolutions (44 R332) -/

section
variable {s : State}

/-- The resolver's revolutions after a quadrant step. -/
def State.sincosTurned (s : State) : Word :=
  if s.word Reg.sincos_init.num = 1 ∧ s.word Reg.sincos_quad.num = 1 ∧ s.sincosQuad = 2 then
    s.word Reg.sincos_revol.num + 1
  else if s.word Reg.sincos_init.num = 1 ∧ s.word Reg.sincos_quad.num = 2 ∧ s.sincosQuad = 1 then
    s.word Reg.sincos_revol.num - 1
  else s.word Reg.sincos_revol.num

/-- The revolutions counted, before the quadrant is stored. -/
def State.sincosCounted (s : State) : State :=
  if s.flag Reg.sincos_init && s.i Reg.sincos_quad == 1 && s.sincosQuad == 2 then
    s.set Reg.sincos_revol (s.i Reg.sincos_revol + 1)
  else if s.flag Reg.sincos_init && s.i Reg.sincos_quad == 2 && s.sincosQuad == 1 then
    s.set Reg.sincos_revol (s.i Reg.sincos_revol - 1)
  else s

theorem State.sincosQuadrant_eq : s.sincosQuadrant = s.sincosCounted.set Reg.sincos_quad s.sincosQuad := rfl

/-- A crossing from quadrant `old` to quadrant `q` of an initialized tracker. -/
theorem State.sincosCrossed_iff (old q : I32) :
    (s.flag Reg.sincos_init && s.i Reg.sincos_quad == old && s.sincosQuad == q) = true ↔
      s.word Reg.sincos_init.num = 1 ∧ s.word Reg.sincos_quad.num = old ∧ s.sincosQuad = q := by
  simp [State.flag, State.i, and_assoc]

theorem State.wf_sincosCounted (hwf : s.regs.wf = true) : s.sincosCounted.regs.wf = true := by
  unfold State.sincosCounted
  split_ifs
  · exact State.wf_set hwf _ _
  · exact State.wf_set hwf _ _
  · exact hwf

theorem State.word_sincosCounted (hwf : s.regs.wf = true) (n : Nat) :
    s.sincosCounted.word n = if n = 422 then s.sincosTurned else s.word n := by
  simp only [State.sincosCounted, State.sincosTurned, State.sincosCrossed_iff]
  by_cases hup : s.word Reg.sincos_init.num = 1 ∧ s.word Reg.sincos_quad.num = 1 ∧ s.sincosQuad = 2
  · rw [if_pos hup, if_pos hup]
    exact State.word_setAny hwf _ _ n (.inr rfl) (by decide)
  rw [if_neg hup, if_neg hup]
  by_cases hdown : s.word Reg.sincos_init.num = 1 ∧ s.word Reg.sincos_quad.num = 2 ∧ s.sincosQuad = 1
  · rw [if_pos hdown, if_pos hdown]
    exact State.word_setAny hwf _ _ n (.inr rfl) (by decide)
  · rw [if_neg hdown, if_neg hdown]
    split_ifs with hn
    · rw [hn]
    · rfl

theorem State.word_sincosQuadrant (hwf : s.regs.wf = true) (n : Nat) :
    s.sincosQuadrant.word n = if n = 423 then s.sincosQuad else if n = 422 then s.sincosTurned else s.word n := by
  rw [State.sincosQuadrant_eq, State.word_setAny (State.wf_sincosCounted hwf) _ _ _ (.inr rfl) (by decide),
    State.word_sincosCounted hwf]

end

/-- Settles O42: the quadrant is stored in every case, and the revolutions count the two crossings. -/
theorem resolverCountsAtHalfTurn : Obligations.ResolverCountsAtHalfTurn := by
  unfold Obligations.ResolverCountsAtHalfTurn
  intro s hs
  have hword := State.word_sincosQuadrant (State.wf_of_sound hs)
  exact ⟨hword 423, hword 422, fun n hquad hrevol => by rw [hword, if_neg hquad, if_neg hrevol]⟩

end Sys2Proof.Machine

/-!
PROOFS. The control loops (spec/45_loops.md R357-R361, R363, R372): the forced bypass of the speed loop, the injection flag,
and the current loop's tracked currents and integrals.
-/

namespace Sys2Proof.Machine

/-! ### The forced bypass (45 R372) -/

section
variable {s : State}

theorem State.word_forcedBypass (hwf : s.regs.wf = true) (n : Nat) :
    s.forcedBypass.word n = if n = 445 then 0 else if n = 444 then s.word 338 else s.word n := by
  rw [State.forcedBypass, State.word_setAny (State.wf_copy hwf _ _) _ _ _ (.inl rfl) (by decide),
    State.word_copy hwf _ _ _ (.inl rfl) (by decide)]

theorem State.onlyRegs_forcedBypass : s.forcedBypass = { s with regs := s.forcedBypass.regs } :=
  State.onlyRegs_trans (State.onlyRegs_set s rfl) (State.onlyRegs_set _ rfl)

theorem State.speedLoop_forced (h : s.word 320 = LuMode.forced.code) : s.speedLoop = s.forcedBypass :=
  if_pos (beq_iff_eq.mpr h)

end

/-- Settles O48: the bypass is two writes of the record, and the speed loop's first branch. -/
theorem forcedBypassesSpeedLoop : Obligations.ForcedBypassesSpeedLoop := by
  unfold Obligations.ForcedBypassesSpeedLoop
  intro s hs
  have hword := State.word_forcedBypass (State.wf_of_sound hs)
  exact ⟨hword 444, hword 445, State.onlyRegs_forcedBypass,
    fun n htrack hcurrent => by rw [hword, if_neg hcurrent, if_neg htrack], State.speedLoop_forced⟩

/-! ### Registers that hold a computed real -/

section
variable {s t : State}

/-- The register holds the real, up to the bits of a NaN (log entry 4). -/
def State.HoldsF (s : State) (r : Reg) (v : F32) : Prop :=
  (s.f r).isNaN = v.isNaN ∧ (v.isNaN = false → s.word r.num = v.bits)

theorem State.HoldsF.of_word {r : Reg} {v : F32} (h : s.HoldsF r v) (ht : t.word r.num = s.word r.num) :
    t.HoldsF r v := by
  unfold State.HoldsF State.f at *
  rwa [ht]

theorem State.holdsF_setF (hwf : s.regs.wf = true) (k : Nat) (v : F32) :
    (s.setF ⟨k, .f32⟩ v).HoldsF ⟨k, .f32⟩ v := by
  cases hv : v.isNaN with
  | true => exact ⟨(State.setF_isNaN hwf k hv).trans hv.symm, fun hnum => absurd (hv.symm.trans hnum) (by decide)⟩
  | false =>
    have hword : (s.setF ⟨k, .f32⟩ v).word k = v.bits := (State.word_setF hwf k k hv).trans (if_pos rfl)
    exact ⟨congrArg (fun w => F32.isNaN ⟨w⟩) hword, fun _ => hword⟩

/-- The two axes of a computed pair. -/
theorem State.holdsF_setF_setF (hwf : s.regs.wf = true) {k j : Nat} (hne : k ≠ j) (hj : j ≠ 464) (v w : F32) :
    ((s.setF ⟨k, .f32⟩ v).setF ⟨j, .f32⟩ w).HoldsF ⟨k, .f32⟩ v ∧
      ((s.setF ⟨k, .f32⟩ v).setF ⟨j, .f32⟩ w).HoldsF ⟨j, .f32⟩ w :=
  ⟨(State.holdsF_setF hwf k v).of_word (State.word_setF_ne w hne hj), State.holdsF_setF (State.wf_setF hwf _ _) j w⟩

/-- An operation leaves the real of a register it does not reach. -/
theorem State.Reach.f_eq {W : Ranges} {F : List Fault} (h : State.Reach W F s t) {r : Reg} (hr : W.has r.num = false) :
    t.f r = s.f r := congrArg F32.mk (h.word r.num hr)

end

/-! ### The stages of the current loop (45 R350) -/

section
variable {s : State}

/-- The first stages of the current loop: power, weakening and the constrained setpoints. -/
def State.aimed (s : State) : State := (s.power.when (!s.modeIs .forced) (·.weakening)).storeTargets

theorem State.currentLoop_eq : s.currentLoop = s.aimed.track.integrate.command := rfl

theorem State.reach_weakening_frame : State.Reach [(438, 438)] [] s s.weakening := by
  unfold State.weakening
  split_ifs
  · exact (State.Reach.refl _ _ s).setAny _ _
  · exact (State.Reach.refl _ _ s).setF _ _

theorem State.reach_aimed : State.Reach [(436, 442)] [] s s.aimed :=
  (((((((State.Reach.refl _ _ s).setF _ _).setF _ _).setF _ _).setF _ _).when _ _
    (fun _ => State.reach_weakening_frame.mono)).setF _ _).setF _ _

theorem State.reach_track_frame : State.Reach [(432, 433)] [] s s.track := by
  unfold State.track
  split_ifs
  · exact ((State.Reach.refl _ _ s).copy _ _).copy _ _
  · exact ((State.Reach.refl _ _ s).setF _ _).setF _ _

theorem State.reach_integrate_frame : State.Reach [(434, 435)] [] s s.integrate :=
  ((State.Reach.refl _ _ s).setF _ _).setF _ _

theorem State.reach_command_frame : State.Reach [(309, 310), (392, 392)] [] s s.command :=
  (((State.Reach.refl _ _ s).when _ _ (fun u => (State.Reach.refl _ _ u).setConst _ _)).setF _ _).setF _ _

/-- The registers of the current loop: the issued rotating-frame voltage, the injection flag and the loop's state. -/
theorem State.reach_currentLoop_frame :
    State.Reach [(309, 310), (392, 392), (432, 442)] [] s s.currentLoop :=
  (((State.reach_aimed.mono).andThen State.reach_track_frame).andThen State.reach_integrate_frame).andThen
    State.reach_command_frame

/-- From the tracked currents on, nothing but the integrals, the voltage and the injection flag changes. -/
theorem State.reach_regulated : State.Reach [(309, 310), (392, 392), (434, 435)] [] s s.integrate.command :=
  (State.reach_integrate_frame.mono).andThen State.reach_command_frame

end

/-! ### The voltage command and the injection flag (45 R361) -/

section
variable {s : State}

theorem State.injected_eq (d : F32) :
    s.injected d =
      if s.word Reg.hfi_inject.num = 1 then d.add ((s.f Reg.hfi_amplitude).mul (s.f (Reg.hfi_wave 0))) else d := by
  simp only [State.injected, State.flag, beq_iff_eq]

/-- A flag that is not set is 0. -/
theorem State.inject_eq_zero (hs : s.sound = true) (h : s.flag Reg.hfi_inject = false) : s.word 392 = 0 := by
  have hlegal := Kind.bool_legal_iff.mp (State.legal_word s hs (n := 392) (k := .bool) (by decide +kernel))
  have hne : s.word 392 ≠ 1 := beq_eq_false_iff_ne.mp h
  bv_omega

theorem State.command_consumesInject (hs : s.sound = true) : s.command.word 392 = 0 := by
  rw [State.command, State.word_setF_ne _ (by decide) (by decide), State.word_setF_ne _ (by decide) (by decide), State.when]
  split_ifs with hset
  · exact State.word_set_same (r := Reg.hfi_inject) (State.wf_of_sound hs) rfl
  · exact State.inject_eq_zero hs (by simpa using hset)

theorem State.command_holdsD (hwf : s.regs.wf = true) :
    s.command.HoldsF Reg.vsi_D (s.injected (s.outputClamp s.piVoltage).v0) :=
  (State.holdsF_setF_setF (State.wf_when hwf _ _ (State.wf_set hwf _ _)) (by decide) (by decide) _ _).1

end

/-- Settles O49: the last stage clears the flag in every sound state, and the current loop ends with it. -/
theorem injectionConsumedOnce : Obligations.InjectionConsumedOnce := by
  unfold Obligations.InjectionConsumedOnce
  intro s hs
  have hregulated : State.Reach [(432, 442)] [] s s.aimed.track.integrate :=
    (State.reach_aimed.mono.andThen State.reach_track_frame).andThen State.reach_integrate_frame
  obtain ⟨-, hvoltage⟩ := State.command_holdsD (State.wf_of_sound hs)
  rw [State.injected_eq] at hvoltage
  exact ⟨State.command_consumesInject (hregulated.sound hs), hvoltage, State.command_consumesInject hs⟩

/-! ### Clamping to a symmetric range -/

theorem F32.sign_ofMag {b : Bool} {m : Nat} (h : m < 2147483648) : (F32.ofMag b m).sign = b := by
  rw [F32.sign, F32.ofMag, BitVec.getLsbD_ofNat, Nat.testBit_eq_decide_div_mod_eq, decide_eq_true (by decide),
    Bool.true_and]
  cases b with
  | true => exact decide_eq_true (by rw [if_pos rfl]; omega)
  | false => exact decide_eq_false (by rw [if_neg Bool.false_ne_true]; omega)

theorem F32.key_neg {x : F32} (h : x.isNaN = false) : x.neg.key = -x.key := by
  rw [F32.neg, if_neg (by simp [h]), F32.key, F32.sign_ofMag (F32.mag_lt x), F32.mag_ofMag (F32.mag_lt x), F32.key]
  cases x.sign with
  | true => simp
  | false => simp

theorem F32.le_iff {x y : F32} : x.le y = true ↔ x.isNaN = false ∧ y.isNaN = false ∧ x.key ≤ y.key := by
  simp [F32.le, and_assoc]

theorem F32.lt_iff {x y : F32} : x.lt y = true ↔ x.isNaN = false ∧ y.isNaN = false ∧ x.key < y.key := by
  simp [F32.lt, and_assoc]

theorem F32.clamp_of_isNaN {x : F32} (h : x.isNaN = true) (lo hi : F32) : x.clamp lo hi = x := by
  rw [F32.clamp, F32.gt_of_isNaN_left h, F32.lt_of_isNaN_left h, if_neg Bool.false_ne_true, if_neg Bool.false_ne_true]

/-- A number cut to an ordered range is a number of the range. -/
theorem F32.clamp_mem {x lo hi : F32} (hx : x.isNaN = false) (hrange : lo.le hi = true) :
    (x.clamp lo hi).isNaN = false ∧ (x.clamp lo hi).ge lo = true ∧ (x.clamp lo hi).le hi = true := by
  obtain ⟨hlo, hhi, hkeys⟩ := F32.le_iff.mp hrange
  simp only [F32.clamp, F32.gt, F32.ge, F32.lt_iff, F32.le_iff, hx, hlo, hhi, true_and]
  split_ifs with habove hbelow
  · exact ⟨hhi, ⟨hhi, hkeys⟩, hhi, le_rfl⟩
  · exact ⟨hlo, ⟨hlo, le_rfl⟩, hlo, hkeys⟩
  · exact ⟨hx, ⟨hx, not_lt.mp hbelow⟩, hx, not_lt.mp habove⟩

/-- A limit that is not negative gives an ordered range. -/
theorem F32.neg_le_self {lim : F32} (h : lim.ge F32.zero = true) : lim.neg.le lim = true := by
  obtain ⟨-, hnum, hkey⟩ := F32.le_iff.mp h
  have hzero : F32.zero.key = 0 := by decide
  refine F32.le_iff.mpr ⟨(F32.isNaN_neg lim).trans hnum, hnum, ?_⟩
  rw [F32.key_neg hnum]
  omega

theorem F32.isNaN_clamp {lo hi : F32} (hrange : lo.le hi = true) (x : F32) : (x.clamp lo hi).isNaN = x.isNaN := by
  cases hx : x.isNaN with
  | true => rw [F32.clamp_of_isNaN hx, hx]
  | false => exact (F32.clamp_mem hx hrange).1

/-! ### The tracked currents and the integrals (45 R357-R359) -/

section
variable {s : State}

/-- Each axis' tracked current with its setpoint. -/
abbrev trackAxes : List (Reg × Reg) := [(Reg.i_track_D, Reg.i_sp_D), (Reg.i_track_Q, Reg.i_sp_Q)]

/-- Each axis' integral with its tracked and its measured current. -/
abbrev integralAxes : List (Reg × Reg × Reg) :=
  [(Reg.i_integral_D, Reg.i_track_D, Reg.lu_iD), (Reg.i_integral_Q, Reg.i_track_Q, Reg.lu_iQ)]

theorem State.track_copies (hwf : s.regs.wf = true) (h : (s.f Reg.i_slew_rate).eq F32.zero = true) :
    ∀ p ∈ trackAxes, s.track.word p.1.num = s.word p.2.num := by
  have hword : ∀ n,
      s.track.word n = if n = 433 then s.word 437 else if n = 432 then s.word 436 else s.word n := fun n => by
    rw [State.track, if_pos h, State.word_copy (State.wf_copy hwf _ _) _ _ _ (.inl rfl) (by decide),
      State.word_copy hwf _ _ _ (.inl rfl) (by decide), State.word_copy hwf _ _ _ (.inl rfl) (by decide)]
    rfl
  exact List.forall_mem_cons.mpr ⟨hword 432, List.forall_mem_singleton.mpr (hword 433)⟩

theorem State.track_slews (hwf : s.regs.wf = true) (h : (s.f Reg.i_slew_rate).eq F32.zero = false) :
    ∀ p ∈ trackAxes,
      s.track.HoldsF p.1 (slew (s.f p.1) (s.f p.2) ((s.f Reg.i_slew_rate).mul (s.f Reg.dT))) := by
  rw [State.track, if_neg (by simp [h])]
  obtain ⟨hD, hQ⟩ := State.holdsF_setF_setF hwf (k := 432) (j := 433) (by decide) (by decide) _ _
  exact List.forall_mem_cons.mpr ⟨hD, List.forall_mem_singleton.mpr hQ⟩

theorem State.integrate_holds (hwf : s.regs.wf = true) :
    ∀ p ∈ integralAxes, s.integrate.HoldsF p.1 (s.integral p.1 ((s.f p.2.1).sub (s.f p.2.2))) := by
  obtain ⟨hD, hQ⟩ := State.holdsF_setF_setF hwf (k := 434) (j := 435) (by decide) (by decide) _ _
  exact List.forall_mem_cons.mpr ⟨hD, List.forall_mem_singleton.mpr hQ⟩

/-- Without a slew rate the loop's tracked currents are its setpoints. -/
theorem State.currentLoop_copies (hs : s.sound = true) (h : (s.f Reg.i_slew_rate).eq F32.zero = true) :
    ∀ p ∈ trackAxes, s.currentLoop.word p.1.num = s.currentLoop.word p.2.num := by
  intro p hp
  have hkept : ∀ q ∈ trackAxes, Ranges.has [(309, 310), (392, 392), (434, 435)] q.1.num = false ∧
    Ranges.has [(309, 310), (392, 392), (434, 435)] q.2.num = false ∧ Ranges.has [(432, 433)] q.2.num = false := by decide
  obtain ⟨htrack, hsetpoint, hstored⟩ := hkept p hp
  rw [← State.reach_aimed.f_eq (r := Reg.i_slew_rate) (by decide)] at h
  calc s.currentLoop.word p.1.num = s.aimed.track.word p.1.num := State.reach_regulated.word _ htrack
    _ = s.aimed.word p.2.num := State.track_copies (State.wf_of_sound (State.reach_aimed.sound hs)) h p hp
    _ = s.aimed.track.word p.2.num := (State.reach_track_frame.word _ hstored).symm
    _ = s.currentLoop.word p.2.num := (State.reach_regulated.word _ hsetpoint).symm

/-- With a slew rate each tracked current moves toward the setpoint of this loop. -/
theorem State.currentLoop_slews (hs : s.sound = true) (h : (s.f Reg.i_slew_rate).eq F32.zero = false) :
    ∀ p ∈ trackAxes, s.currentLoop.HoldsF p.1
      (slew (s.f p.1) (s.currentLoop.f p.2) ((s.f Reg.i_slew_rate).mul (s.f Reg.dT))) := by
  intro p hp
  have hkept : ∀ q ∈ trackAxes, Ranges.has [(436, 442)] q.1.num = false ∧
    Ranges.has [(309, 310), (392, 392), (434, 435)] q.1.num = false ∧
    Ranges.has [(309, 310), (392, 392), (434, 435)] q.2.num = false ∧ Ranges.has [(432, 433)] q.2.num = false := by decide
  obtain ⟨hold, htrack, hsetpoint, hstored⟩ := hkept p hp
  have hrate : s.aimed.f Reg.i_slew_rate = s.f Reg.i_slew_rate := State.reach_aimed.f_eq (by decide)
  have hslews := State.track_slews (State.wf_of_sound (State.reach_aimed.sound hs)) (hrate ▸ h) p hp
  rw [State.currentLoop_eq, State.reach_regulated.f_eq hsetpoint, State.reach_track_frame.f_eq hstored, ← hrate,
    ← State.reach_aimed.f_eq (r := Reg.dT) (by decide), ← State.reach_aimed.f_eq hold]
  exact hslews.of_word (State.reach_regulated.word _ htrack)

/-- The loop's integrals: the old ones with the gained error of this loop's tracked currents, cut to the limit. -/
theorem State.currentLoop_integrates (hs : s.sound = true) :
    ∀ p ∈ integralAxes, s.currentLoop.HoldsF p.1 (s.integral p.1 ((s.currentLoop.f p.2.1).sub (s.f p.2.2))) := by
  intro p hp
  have hkept : ∀ q ∈ integralAxes, Ranges.has [(432, 433), (436, 442)] q.1.num = false ∧
    Ranges.has [(309, 310), (392, 392)] q.1.num = false ∧
    Ranges.has [(309, 310), (392, 392), (434, 435)] q.2.1.num = false ∧
    Ranges.has [(432, 433), (436, 442)] q.2.2.num = false := by decide
  obtain ⟨hold, hintegral, htrack, hmeasured⟩ := hkept p hp
  have htracked : State.Reach [(432, 433), (436, 442)] [] s s.aimed.track :=
    State.reach_aimed.mono.andThen State.reach_track_frame
  have hgain := htracked.f_eq (r := Reg.i_gain_I) (by decide)
  have hlimit : s.aimed.track.windupLimit = s.windupLimit := by
    rw [State.windupLimit, htracked.f_eq (r := Reg.i_headroom) (by decide), htracked.f_eq (r := Reg.fb_uS) (by decide),
      State.windupLimit]
  have hholds := (State.integrate_holds (State.wf_of_sound (htracked.sound hs)) p hp).of_word
    (State.reach_command_frame.word _ hintegral)
  rw [State.integral, htracked.f_eq hold, hgain, htracked.f_eq hmeasured, hlimit] at hholds
  rwa [State.integral, State.currentLoop_eq, State.reach_regulated.f_eq htrack]

end

/-- Settles O50: the stages of the loop one after another, each reading what the stages after it leave. -/
theorem currentTrackedAndIntegralBounded : Obligations.CurrentTrackedAndIntegralBounded := by
  unfold Obligations.CurrentTrackedAndIntegralBounded
  intro s hs t lim step
  refine ⟨fun p hp => ⟨fun hrate => State.currentLoop_copies hs hrate p hp, fun hrate => ?_⟩, fun p hp => ?_,
    State.reach_currentLoop_frame.word⟩
  · exact (State.currentLoop_slews hs hrate p hp).2
  · intro v c
    obtain ⟨hnan, hword⟩ := State.currentLoop_integrates hs p hp
    refine ⟨hword, fun hlim => ⟨hnan.trans (F32.isNaN_clamp (F32.neg_le_self hlim) v), fun hv => ?_⟩⟩
    obtain ⟨hnum, hlow, hhigh⟩ := F32.clamp_mem hv (F32.neg_le_self hlim)
    rw [show t.f p.1 = v.clamp lim.neg lim from congrArg F32.mk (hword hnum)]
    exact ⟨hlow, hhigh⟩

end Sys2Proof.Machine

/-!
PROOFS. The commutation mapping (spec/46_voltage.md R400-R408): the flags of the duty and Z sinks register by register,
the minimum pulse and the common shift over signed counts, bootstrap retention, and the counts `pm_voltage` emits.
-/

section

-- One declaration after another, as in the laws above: each proof in flight reserves a stack of the check's memory.
set_option Elab.async false

namespace Sys2Proof.Machine

/-- A statement about every leg's value, leg by leg. -/
theorem forall_mem_legs {α : Type} {P : α → Prop} {a b c : α} : (∀ v ∈ [a, b, c], P v) ↔ P a ∧ P b ∧ P c := by
  simp

/-! ### The validity flags of the duty (46 R406) -/

section
variable {s : State}

theorem Flag.word_legal (b : Bool) : Kind.bool.legal (Flag.word b) = true := by cases b <;> rfl

/-- A flag of a leg, written in a canonical record. -/
theorem State.word_legFlag (hwf : s.regs.wf = true) {k : Nat} (hk : k ≤ 300) (b : Bool) (n : Nat) :
    (s.setFlag ⟨k, .bool⟩ b).word n = if n = k then Flag.word b else s.word n :=
  State.word_setLegal hwf (r := ⟨k, .bool⟩) (Flag.word_legal b) (by dsimp only; omega) n

theorem State.wf_classifyLeg (hwf : s.regs.wf = true) (i : Nat) : (s.classifyLeg i).regs.wf = true :=
  State.wf_setFlag (State.wf_setFlag (State.wf_setFlag hwf _ _) _ _) _ _

theorem State.word_classifyLeg (hwf : s.regs.wf = true) {i : Nat} (hi : i < 3) (n : Nat) :
    (s.classifyLeg i).word n =
      if n = 295 + i then Flag.word (Flag.voltage (s.word 41) (s.word 43) (s.word (288 + i)))
      else if n = 292 + i then Flag.word (Flag.current s.lowside (s.word 41) (s.word 43) (s.word (288 + i)))
      else if n = 298 + i then Flag.word (Flag.clearance (s.word 41) (s.word 43) (s.word (288 + i))) else s.word n := by
  have hwf1 := State.wf_setFlag hwf (Reg.vsi_CF i)
  rw [State.classifyLeg, State.word_legFlag (State.wf_setFlag (hwf1 _) _ _) (by omega),
    State.word_legFlag (hwf1 _) (by omega), State.word_legFlag hwf (by omega)]
  rfl

/-- The three legs' flags are computed from one duty: no leg's flags are read by another's. -/
theorem State.word_classify (hwf : s.regs.wf = true) {i : Nat} (hi : i < 3) :
    s.classify.word (298 + i) = Flag.word (Flag.clearance (s.word 41) (s.word 43) (s.word (288 + i))) ∧
    s.classify.word (292 + i) = Flag.word (Flag.current s.lowside (s.word 41) (s.word 43) (s.word (288 + i))) ∧
    s.classify.word (295 + i) = Flag.word (Flag.voltage (s.word 41) (s.word 43) (s.word (288 + i))) := by
  have hwf0 := State.wf_classifyLeg hwf 0
  have hwf1 := State.wf_classifyLeg hwf0 1
  have hlow0 : (s.classifyLeg 0).lowside = s.lowside := by
    simp only [State.lowside, State.word_classifyLeg_ne (n := 1) (i := 0) (by decide) (by decide)]
  have hlow1 : ((s.classifyLeg 0).classifyLeg 1).lowside = s.lowside := by
    simp only [State.lowside, State.word_classifyLeg_ne (n := 1) (i := 1) (by decide) (by decide),
      State.word_classifyLeg_ne (n := 1) (i := 0) (by decide) (by decide)]
  have hall : ∀ n, s.classify.word n = _ := fun n => State.word_classifyLeg hwf1 (i := 2) (by decide) n
  interval_cases i <;>
    simp [hall, hlow0, hlow1, State.word_classifyLeg hwf0, State.word_classifyLeg hwf]

theorem Flag.clearance_iff {res cz v : I32} :
    Flag.clearance res cz v = true ↔ (0 : I32).slt (res - v) = true ∧ (res - v).slt cz = true := by
  rw [Flag.clearance, Bool.and_eq_true]

/-- The current flag's word: an edge near is what forbids it for an inline scheme. -/
theorem Flag.word_current (lowside : Bool) (res cz v : I32) :
    Flag.word (Flag.current lowside res cz v) =
      if lowside = true then (if (I32.max cz 1).sle (res - v) = true then 1 else 0)
      else if Flag.clearance res cz v = true then 0 else 1 := by
  unfold Flag.current
  cases lowside with
  | true => rfl
  | false => cases Flag.clearance res cz v <;> rfl

theorem Flag.voltage_iff {res cz v : I32} :
    Flag.voltage res cz v = true ↔ v = 0 ∨ v = res ∨ (cz.sle v = true ∧ v.sle (res - cz) = true) := by
  simp [Flag.voltage, or_assoc]

theorem State.lowside_iff : s.lowside = true ↔ s.word Reg.config_IFB.num = 2 ∨ s.word Reg.config_IFB.num = 3 := by
  simp [State.lowside]

end

/-- Settles O57: each leg's three flags, read as the rule writes them. -/
theorem classifyFlags : Obligations.ClassifyFlags := by
  unfold Obligations.ClassifyFlags
  intro s hs res cz
  refine ⟨fun i hi => ?_, State.onlyRegs_classify s, fun n hn =>
    State.word_classify_ne (Ranges.has_cons_false.mp hn).1⟩
  intro v low edge
  obtain ⟨hedge, hcurrent, hvoltage⟩ := State.word_classify (State.wf_of_sound hs) hi
  refine ⟨hedge.trans ?_, hcurrent.trans ?_, hvoltage.trans ?_⟩
  · exact if_congr Flag.clearance_iff rfl rfl
  · exact (Flag.word_current _ _ _ _).trans (if_congr State.lowside_iff rfl (if_congr Flag.clearance_iff rfl rfl))
  · exact if_congr Flag.voltage_iff rfl rfl

/-! ### The Z sink (46 R408) -/

section
variable {s : State}

theorem State.word_zFlags (hwf : s.regs.wf = true) (m : Word) {i : Nat} (hi : i < 3) (n : Nat) :
    (s.zFlags m i).word n =
      if m.getLsbD i = true then
        (if n = 298 + i then 0 else if n = 295 + i then 1 else if n = 292 + i then 1 else s.word n)
      else s.word n := by
  unfold State.zFlags
  split
  · have hwf1 := State.wf_setFlag hwf (Reg.vsi_IF i) true
    rw [State.word_legFlag (State.wf_setFlag hwf1 _ _) (by omega), State.word_legFlag hwf1 (by omega),
      State.word_legFlag hwf (by omega)]
    rfl
  · rfl

theorem State.wf_zFlags (hwf : s.regs.wf = true) (m : Word) (i : Nat) : (s.zFlags m i).regs.wf = true := by
  unfold State.zFlags
  split
  · exact State.wf_setFlag (State.wf_setFlag (State.wf_setFlag hwf _ _) _ _) _ _
  · exact hwf

theorem State.onlyRegs_zFlags (s : State) (m : Word) (i : Nat) :
    s.zFlags m i = { s with regs := (s.zFlags m i).regs } := by
  unfold State.zFlags
  split
  · exact State.onlyRegs_trans (State.onlyRegs_trans (State.onlyRegs_setFlag _ _ _) (State.onlyRegs_setFlag _ _ _))
      (State.onlyRegs_setFlag _ _ _)
  · rfl

/-- Beyond the call of the sink, `emit_z` changes registers only. -/
theorem State.onlyRegs_emitZ (s : State) (m : Word) : s.emitZ m = { s.callZ m with regs := (s.emitZ m).regs } :=
  State.onlyRegs_trans (State.onlyRegs_trans (State.onlyRegs_trans (State.onlyRegs_set _ rfl)
    (State.onlyRegs_zFlags _ m 0)) (State.onlyRegs_zFlags _ m 1)) (State.onlyRegs_zFlags _ m 2)

/-- The flags of the legs after `emit_z`, leg by leg. -/
theorem State.word_emitZ_flags (hwf : s.regs.wf = true) (m : Word) {i : Nat} (hi : i < 3) :
    (s.emitZ m).word (292 + i) = (if m.getLsbD i = true then 1 else s.word (292 + i)) ∧
    (s.emitZ m).word (295 + i) = (if m.getLsbD i = true then 1 else s.word (295 + i)) ∧
    (s.emitZ m).word (298 + i) = (if m.getLsbD i = true then 0 else s.word (298 + i)) := by
  have hwf0 : ((s.callZ m).set Reg.vsi_Z m).regs.wf = true := State.wf_set (s := s.callZ m) hwf _ _
  have hwf1 := State.wf_zFlags hwf0 m 0
  have hwf2 := State.wf_zFlags hwf1 m 1
  have hmask : ∀ n, ((s.callZ m).set Reg.vsi_Z m).word n = if n = 291 then m else s.word n := fun n =>
    State.word_setAny (s := s.callZ m) hwf _ _ n (.inr rfl) (by decide)
  have hall : ∀ n, (s.emitZ m).word n = _ := fun n => State.word_zFlags hwf2 m (i := 2) (by decide) n
  interval_cases i <;> simp [hall, State.word_zFlags hwf1, State.word_zFlags hwf0, hmask]

end

/-- Settles O58: the call, the mask's register, and each leg's flags. -/
theorem zMaskFlags : Obligations.ZMaskFlags := by
  unfold Obligations.ZMaskFlags
  intro s m hs hm
  have hwf := State.wf_of_sound hs
  have honly := State.onlyRegs_emitZ s m
  have hout : (s.emitZ m).out = { s.out with sinks := s.out.sinks ++ [.z m] } := congrArg State.out honly
  have hbridge : (s.emitZ m).bridge = { s.bridge with z := some m } := congrArg State.bridge honly
  refine ⟨hout, hbridge, State.word_emitZ hwf m (.inl (by decide)), fun i hi => State.word_emitZ_flags hwf m hi, ?_,
    fun n hn => ?_⟩
  · rw [hout, hbridge]
    exact honly
  · obtain ⟨hoff, -⟩ := Ranges.has_cons_false.mp hn
    rw [State.word_emitZ hwf m (by omega), if_neg (by omega)]

/-! ### The duty sink (46 R407) -/

section
variable {s : State} {d : Legs I32}

theorem SinkCall.ok_duty_iff {res : I32} :
    SinkCall.ok res (.duty d.a d.b d.c) = true ↔ ∀ v ∈ [d.a, d.b, d.c], 0 ≤ v.toInt ∧ v.toInt ≤ res.toInt := by
  simp [SinkCall.ok, dutyInRange, BitVec.sle_iff_toInt_le, and_assoc]

/-- An emitted duty writes its three registers and the flags of the legs. -/
theorem State.word_emitDuty_ne (hd : SinkCall.ok (s.word 41) (.duty d.a d.b d.c) = true) (he : s.tl.emitted = false)
    {n : Nat} (hduty : n < 288 ∨ 290 < n) (hflags : n < 292 ∨ 300 < n) : (s.emitDuty d).word n = s.word n := by
  have hcount : ∀ (t : State) (i : Nat) (w : Word), i < 3 → (t.set (Reg.vsi_DC i) w).word n = t.word n :=
    fun t i w hi => State.word_set_other (by dsimp only; omega) (by dsimp only; omega)
  rw [State.emitDuty_ok d hd he, State.word_classify_ne hflags, hcount _ _ _ (by decide), hcount _ _ _ (by decide),
    hcount _ _ _ (by decide), State.callDuty_word]

end

/-- Settles O56: the three outcomes of `emit_duty`, the range tested first. -/
theorem dutySinkContract : Obligations.DutySinkContract := by
  unfold Obligations.DutySinkContract
  intro s d hs inRange
  have hrange : SinkCall.ok (s.word 41) (.duty d.a d.b d.c) = true ↔ inRange := SinkCall.ok_duty_iff
  refine ⟨fun hd he => ?_, fun hd => ?_, fun hd he => State.emitDuty_twice d (hrange.mpr hd) he⟩
  · have hok := hrange.mpr hd
    have honly := State.onlyRecord_emitDuty d hok he
    obtain ⟨ha, hb, hc⟩ := State.word_emitDuty_counts (State.wf_of_sound hs) d hok he
    refine ⟨congrArg Outputs.sinks honly.out, congrArg Bridge.duty honly.bridge, ha, hb, hc, honly.tl, fun n hn => ?_⟩
    obtain ⟨hduty, hrest⟩ := Ranges.has_cons_false.mp hn
    obtain ⟨hflags, -⟩ := Ranges.has_cons_false.mp hrest
    exact State.word_emitDuty_ne hok he hduty hflags
  · exact State.emitDuty_range d (Bool.eq_false_iff.mpr (fun hok => hd (hrange.mp hok)))

/-! ### Signed order and range of `i32` values (40 R171, R182) -/

section
variable {a b v lo hi : I32}

theorem I32.toInt_min (a b : I32) : (I32.min a b).toInt = min a.toInt b.toInt := by
  unfold I32.min
  split_ifs with h <;> rw [BitVec.slt_iff_toInt_lt] at h <;> omega

theorem I32.toInt_max (a b : I32) : (I32.max a b).toInt = max a.toInt b.toInt := by
  unfold I32.max
  split_ifs with h <;> rw [BitVec.slt_iff_toInt_lt] at h <;> omega

theorem I32.clamp_mem (h : lo.toInt ≤ hi.toInt) (v : I32) :
    lo.toInt ≤ (I32.clamp v lo hi).toInt ∧ (I32.clamp v lo hi).toInt ≤ hi.toInt := by
  simp only [I32.clamp, BitVec.slt_iff_toInt_lt]
  split_ifs <;> omega

/-- The difference of two counts does not wrap. -/
theorem I32.toInt_sub_of_nonneg (ha : 0 ≤ a.toInt) (hb : 0 ≤ b.toInt) : (a - b).toInt = a.toInt - b.toInt := by
  have hamax := BitVec.toInt_lt (x := a)
  have hbmax := BitVec.toInt_lt (x := b)
  rw [BitVec.toInt_sub, Int.bmod_eq_of_le (by omega) (by omega)]

theorem I32.toInt_add_of_mem (hlow : 0 ≤ a.toInt + b.toInt) (hhigh : a.toInt + b.toInt < 2147483648) :
    (a + b).toInt = a.toInt + b.toInt := by
  rw [BitVec.toInt_add, Int.bmod_eq_of_le (by omega) (by omega)]

/-- The lesser and the greater of two values are the two values. -/
theorem I32.perm_min_max (a b : I32) : [I32.min a b, I32.max a b].Perm [a, b] := by
  simp only [I32.min, I32.max, BitVec.slt_iff_toInt_lt]
  split_ifs with hba hab hab
  · omega
  · exact .swap a b []
  · exact .refl _
  · rw [BitVec.eq_of_toInt_eq (show a.toInt = b.toInt by omega)]

end

/-! ### The minimum pulse (46 R404) -/

section
variable {res mp v : I32}

/-- No pulse and no gap narrower than `mp`, within `[0, res]`. -/
def FitsPulse (res mp v : I32) : Prop := v = 0 ∨ v = res ∨ (mp.toInt ≤ v.toInt ∧ v.toInt ≤ res.toInt - mp.toInt)

theorem FitsPulse.mem (h : FitsPulse res mp v) (hres : 0 ≤ res.toInt) (hmp : 0 ≤ mp.toInt) :
    0 ≤ v.toInt ∧ v.toInt ≤ res.toInt := by
  have hzero : (0 : I32).toInt = 0 := rfl
  rcases h with rfl | rfl | h <;> omega

theorem fitsPulse_snapPulse (hmp : 0 ≤ mp.toInt) (hv : 0 ≤ v.toInt) (hvres : v.toInt ≤ res.toInt) :
    FitsPulse res mp (snapPulse res mp v) := by
  have hzero : (0 : I32).toInt = 0 := rfl
  have hgap := I32.toInt_sub_of_nonneg (hv.trans hvres) hmp
  simp only [FitsPulse, snapPulse, Bool.and_eq_true, BitVec.slt_iff_toInt_lt, hgap, hzero]
  split_ifs with hnarrow hlow hhigh
  · exact .inr (.inl rfl)
  · exact .inl rfl
  · exact .inr (.inl rfl)
  · rcases eq_or_ne v.toInt 0 with h0 | h0
    · exact .inl (BitVec.eq_of_toInt_eq h0)
    · rcases eq_or_ne v.toInt res.toInt with hfull | hfull
      · exact .inr (.inl (BitVec.eq_of_toInt_eq hfull))
      · exact .inr (.inr (by omega))

/-- Whatever the common shift, wrapped or not, the clamp brings the leg into `[0, res]`. -/
theorem fitsPulse_shiftLeg (hres : 0 ≤ res.toInt) (hmp : 0 ≤ mp.toInt) (s v : I32) :
    FitsPulse res mp (shiftLeg res mp s v) := by
  obtain ⟨hlow, hhigh⟩ := I32.clamp_mem (lo := 0) hres (v + s)
  exact fitsPulse_snapPulse hmp hlow hhigh

/-- With a minimum pulse or a clearance zone each leg is shifted by one common shift and snapped. -/
theorem exists_shiftLeg_of_pulseShift (lowside : Bool) (res : I32) {cz : I32} (h : ¬(mp = 0 ∧ cz = 0)) (d : Legs I32) :
    ∃ s, pulseShift lowside res mp cz d = ⟨shiftLeg res mp s d.a, shiftLeg res mp s d.b, shiftLeg res mp s d.c⟩ :=
  ⟨_, if_neg h⟩

theorem fitsPulse_pulseShift (lowside : Bool) {cz : I32} (h : ¬(mp = 0 ∧ cz = 0)) (hres : 0 ≤ res.toInt)
    (hmp : 0 ≤ mp.toInt) (d : Legs I32) :
    ∀ v ∈ [(pulseShift lowside res mp cz d).a, (pulseShift lowside res mp cz d).b, (pulseShift lowside res mp cz d).c],
      FitsPulse res mp v := by
  obtain ⟨s, hs⟩ := exists_shiftLeg_of_pulseShift lowside res h d
  have hleg := fitsPulse_shiftLeg hres hmp s
  rw [hs]
  exact forall_mem_legs.mpr ⟨hleg d.a, hleg d.b, hleg d.c⟩

end

/-- Settles O51: the rule returns counts of the range as they are, or clamps and snaps each. -/
theorem minimumPulse : Obligations.MinimumPulse := by
  unfold Obligations.MinimumPulse
  intro lowside res mp cz d hmp hd
  have hres : 0 ≤ res.toInt := (forall_mem_legs.mp hd).1.1.trans (forall_mem_legs.mp hd).1.2
  by_cases h : mp = 0 ∧ cz = 0
  · intro v hv
    rw [pulseShift, if_pos h] at hv
    obtain ⟨rfl, -⟩ := h
    have hzero : (0 : I32).toInt = 0 := rfl
    rw [hzero, sub_zero]
    exact .inr (.inr (hd v hv))
  · exact fitsPulse_pulseShift lowside h hres hmp d

/-! ### The common shift (46 R404) -/

section
variable {w : PulseWindow} {p q x : I32} {d : Legs I32}

theorem sort3_sorted (d : Legs I32) :
    (sort3 d).a.toInt ≤ (sort3 d).b.toInt ∧ (sort3 d).b.toInt ≤ (sort3 d).c.toInt := by
  simp only [sort3, I32.toInt_min, I32.toInt_max]
  omega

/-- Sorting the three counts is three exchanges. -/
theorem sort3_perm (d : Legs I32) : [(sort3 d).a, (sort3 d).b, (sort3 d).c].Perm [d.a, d.b, d.c] := by
  have hleast : (sort3 d).a = I32.min (I32.min d.a d.b) (I32.min (I32.max d.a d.b) d.c) :=
    BitVec.eq_of_toInt_eq (by simp only [sort3, I32.toInt_min, I32.toInt_max]; omega)
  rw [hleast]
  exact ((I32.perm_min_max _ _).append_right [_]).trans
    (((I32.perm_min_max _ d.c).cons _).trans ((I32.perm_min_max d.a d.b).append_right [d.c]))

theorem PulseWindow.has_iff : w.has x = true ↔ w.lo.toInt ≤ x.toInt ∧ x.toInt ≤ w.hi.toInt := by
  simp [PulseWindow.has, BitVec.sle_iff_toInt_le]

theorem PulseWindow.hasTwo_iff_countP : w.hasTwo d = true ↔ 2 ≤ [d.a, d.b, d.c].countP w.has := by
  simp only [PulseWindow.hasTwo, List.countP_cons, List.countP_nil]
  cases w.has d.a <;> cases w.has d.b <;> cases w.has d.c <;> decide

/-- A shift of all legs may be counted on the sorted legs. -/
theorem PulseWindow.countP_shift_sort3 (w : PulseWindow) (d : Legs I32) (x : I32) :
    [d.a + x, d.b + x, d.c + x].countP w.has =
      [(sort3 d).a + x, (sort3 d).b + x, (sort3 d).c + x].countP w.has :=
  ((sort3_perm d).map (· + x)).countP_eq _ |>.symm

/-- A pair that fits is shifted. -/
theorem PulseWindow.pairShift_isSome (hlo : 0 ≤ w.lo.toInt) (hp : 0 ≤ p.toInt) (hpq : p.toInt ≤ q.toInt)
    (hfit : q.toInt - p.toInt ≤ w.hi.toInt - w.lo.toInt) : (w.pairShift p q).isSome = true := by
  have hgap := I32.toInt_sub_of_nonneg (hp.trans hpq) hp
  have hwidth := I32.toInt_sub_of_nonneg (a := w.hi) (b := w.lo) (by omega) hlo
  have hfits : (w.lo.sle w.hi && (q - p).sle (w.hi - w.lo)) = true := by
    rw [Bool.and_eq_true, BitVec.sle_iff_toInt_le, BitVec.sle_iff_toInt_le, hgap, hwidth]
    omega
  rw [PulseWindow.pairShift, if_pos hfits]
  rfl

/-- A pair's shift brings both counts into the window. -/
theorem PulseWindow.has_of_pairShift (hlo : 0 ≤ w.lo.toInt) (hp : 0 ≤ p.toInt) (hpq : p.toInt ≤ q.toInt)
    (hx : w.pairShift p q = some x) : w.has (p + x) = true ∧ w.has (q + x) = true := by
  have hgap := I32.toInt_sub_of_nonneg (hp.trans hpq) hp
  rw [PulseWindow.pairShift] at hx
  split at hx
  · next hfits =>
    rw [Bool.and_eq_true, BitVec.sle_iff_toInt_le, BitVec.sle_iff_toInt_le, hgap] at hfits
    obtain ⟨horder, hfit⟩ := hfits
    have hhi := hlo.trans horder
    rw [I32.toInt_sub_of_nonneg hhi hlo] at hfit
    have hlower := I32.toInt_sub_of_nonneg hlo hp
    have hupper := I32.toInt_sub_of_nonneg hhi (hp.trans hpq)
    obtain ⟨hleast, hmost⟩ := I32.clamp_mem (lo := w.lo - p) (hi := w.hi - q) (by omega) 0
    rw [Option.some.inj hx] at hleast hmost
    have hmax := BitVec.toInt_lt (x := w.hi)
    rw [PulseWindow.has_iff, PulseWindow.has_iff, I32.toInt_add_of_mem (by omega) (by omega),
      I32.toInt_add_of_mem (by omega) (by omega)]
    omega
  · cases hx

/-- The common shift is the shift of one of the two pairs, when there is one. -/
theorem PulseWindow.shift_of_pair (h : w.hasTwo d = false)
    (hpair : (w.pairShift (sort3 d).a (sort3 d).b).isSome = true ∨
      (w.pairShift (sort3 d).b (sort3 d).c).isSome = true) :
    w.pairShift (sort3 d).a (sort3 d).b = some (w.shift d) ∨
      w.pairShift (sort3 d).b (sort3 d).c = some (w.shift d) := by
  rw [PulseWindow.shift, if_neg (by simp [h])]
  cases hlow : w.pairShift (sort3 d).a (sort3 d).b <;> cases hhigh : w.pairShift (sort3 d).b (sort3 d).c
  · simp [hlow, hhigh] at hpair
  · exact .inr rfl
  · exact .inl rfl
  · dsimp only
    split_ifs
    · exact .inr rfl
    · exact .inl rfl

end

/-- Settles O52: with no two legs in the window, the rule shifts by one pair's shift, which brings both of its counts
into the window; the sorted counts are the legs'. -/
theorem commonShiftSamplesTwoLegs : Obligations.CommonShiftSamplesTwoLegs := by
  unfold Obligations.CommonShiftSamplesTwoLegs
  intro w d hlo hd hfit
  cases htwo : w.hasTwo d with
  | true => rw [PulseWindow.shift, if_pos htwo]; simpa using htwo
  | false =>
    obtain ⟨hab, hbc⟩ := sort3_sorted d
    have hleast : 0 ≤ (sort3 d).a.toInt := hd _ ((sort3_perm d).mem_iff.mp (by simp))
    have hpair := PulseWindow.shift_of_pair htwo
      (hfit.imp (PulseWindow.pairShift_isSome hlo hleast hab) (PulseWindow.pairShift_isSome hlo (hleast.trans hab) hbc))
    rw [PulseWindow.hasTwo_iff_countP, PulseWindow.countP_shift_sort3]
    simp only [List.countP_cons, List.countP_nil]
    rcases hpair with hlow | hhigh
    · obtain ⟨ha, hb⟩ := PulseWindow.has_of_pairShift hlo hleast hab hlow
      rw [if_pos ha, if_pos hb]
      omega
    · obtain ⟨hb, hc⟩ := PulseWindow.has_of_pairShift hlo (hleast.trans hab) hbc hhigh
      rw [if_pos hb, if_pos hc]
      omega

/-! ### Bootstrap retention (46 R405) -/

section
variable {s : State} {i : Nat} {v x : I32}

/-- A counter of the record is positive when it is not 0. -/
theorem State.pos_iff (hs : s.sound = true) {r : Reg} (hk : Reg.kindOf r.num = some .intNonNeg) :
    s.pos r = true ↔ s.word r.num ≠ 0 := by
  have hnonneg : 0 ≤ (s.word r.num).toInt := Kind.intLegal_iff_toInt_nonneg.mp (State.legal_word s hs hk)
  have hzero : (0 : I32).toInt = 0 := rfl
  rw [State.pos, State.i, BitVec.slt_iff_toInt_lt, hzero, ne_eq, ← BitVec.toInt_inj, hzero]
  omega

theorem Reg.kindOf_vsi_rch (hi : i < 3) : Reg.kindOf (Reg.vsi_rch i).num = some .intNonNeg := by
  interval_cases i <;> rfl

theorem Reg.kindOf_vsi_bst (hi : i < 3) : Reg.kindOf (Reg.vsi_bst i).num = some .intNonNeg := by
  interval_cases i <;> rfl

theorem State.satInc_bst_legal (hs : s.sound = true) (hi : i < 3) :
    Kind.intLegal (I32.satInc (s.i (Reg.vsi_bst i))) = true :=
  State.Reach.intLegal_satInc (State.legal_word s hs (Reg.kindOf_vsi_bst hi))

theorem State.tm_recharge_legal (hs : s.sound = true) : Kind.intLegal (s.i Reg.tm_recharge) = true :=
  State.legal_word s hs (n := 45) (k := .intNonNeg) rfl

theorem State.word_setBst (hwf : s.regs.wf = true) (hi : i < 3) (hx : Kind.intLegal x = true) (n : Nat) :
    (s.set (Reg.vsi_bst i) x).word n = if n = 301 + i then x else s.word n :=
  State.word_setLegal hwf (r := Reg.vsi_bst i) hx (by dsimp only; omega) n

/-- A leg's recharge window set and its count of full duties cleared. -/
theorem State.word_setRch_clearBst (hwf : s.regs.wf = true) (hi : i < 3) (hx : Kind.intLegal x = true) (n : Nat) :
    ((s.set (Reg.vsi_rch i) x).set (Reg.vsi_bst i) 0).word n =
      if n = 301 + i then 0 else if n = 304 + i then x else s.word n := by
  rw [State.word_setBst (State.wf_set hwf _ _) hi rfl,
    State.word_setLegal hwf (r := Reg.vsi_rch i) hx (by dsimp only; omega)]

theorem State.word_bootLeg_ne (hi : i < 3) (v : I32) {n : Nat} (hrch : n ≠ 304 + i) (hbst : n ≠ 301 + i) :
    (s.bootLeg i v).word n = s.word n := by
  have hset : ∀ (t : State) (w : Word), (t.set (Reg.vsi_rch i) w).word n = t.word n ∧
      (t.set (Reg.vsi_bst i) w).word n = t.word n := fun t w =>
    ⟨State.word_set_other hrch (by dsimp only; omega), State.word_set_other hbst (by dsimp only; omega)⟩
  unfold State.bootLeg
  split_ifs
  · rw [(hset _ _).2, (hset _ _).1]
  · rw [(hset _ _).2, (hset _ _).1]
  · exact (hset _ _).2
  · exact (hset _ _).2

theorem State.onlyRecord_bootLeg (hs : s.sound = true) (hi : i < 3) (v : I32) : s.OnlyRecord (s.bootLeg i v) := by
  unfold State.bootLeg
  split_ifs with hpos
  · exact ((State.OnlyRecord.refl s).set (Reg.vsi_rch i) _ (intLegal_pred hpos)).set (Reg.vsi_bst i) 0 rfl
  · exact ((State.OnlyRecord.refl s).set (Reg.vsi_rch i) _ (State.tm_recharge_legal hs)).set (Reg.vsi_bst i) 0 rfl
  · exact (State.OnlyRecord.refl s).set (Reg.vsi_bst i) _ (State.satInc_bst_legal hs hi)
  · exact (State.OnlyRecord.refl s).set (Reg.vsi_bst i) 0 rfl

/-- The four cases of a leg's counters, told by its registers' words. -/
theorem State.bootLeg_eq (hs : s.sound = true) (hi : i < 3) (v : I32) :
    s.bootLeg i v =
      if s.word (Reg.vsi_rch i).num ≠ 0 then
        (s.set (Reg.vsi_rch i) (s.i (Reg.vsi_rch i) - 1)).set (Reg.vsi_bst i) 0
      else if s.word Reg.tm_bootstrap.num ≠ 0 ∧ v = s.i Reg.pwm_resolution then
        if (s.i Reg.tm_bootstrap).slt (I32.satInc (s.i (Reg.vsi_bst i))) = true then
          (s.set (Reg.vsi_rch i) (s.i Reg.tm_recharge)).set (Reg.vsi_bst i) 0
        else s.count1 (Reg.vsi_bst i)
      else s.set (Reg.vsi_bst i) 0 := by
  simp only [State.bootLeg, Bool.and_eq_true, beq_iff_eq, State.pos_iff hs (Reg.kindOf_vsi_rch hi),
    State.pos_iff hs (r := Reg.tm_bootstrap) rfl]

theorem State.bootDuty_eq (hs : s.sound = true) (hi : i < 3) (v : I32) :
    s.bootDuty i v =
      if s.word (Reg.vsi_rch i).num ≠ 0 then
        I32.min v (s.i Reg.pwm_resolution - I32.max (s.i Reg.minimal_pulse) 1) else v := by
  simp only [State.bootDuty, State.pos_iff hs (Reg.kindOf_vsi_rch hi), State.rechargeTop]

end

/-- Settles O53: the four cases of a leg's counters, of which the duty sees the first only. -/
theorem bootstrapRecharge : Obligations.BootstrapRecharge := by
  unfold Obligations.BootstrapRecharge
  intro s i v hs hi res bst t
  have hwf := State.wf_of_sound hs
  have hother : 304 + i ≠ 301 + i := by omega
  refine ⟨?_, fun n hrch hbst => State.word_bootLeg_ne hi v hrch hbst⟩
  rw [show t = s.bootLeg i v from rfl, State.bootLeg_eq hs hi, State.bootDuty_eq hs hi]
  split_ifs with hwindow hfull hpast
  · have hword := State.word_setRch_clearBst hwf hi
      (intLegal_pred ((State.pos_iff hs (Reg.kindOf_vsi_rch hi)).mpr hwindow))
    exact ⟨rfl, (hword _).trans ((if_neg hother).trans (if_pos rfl)), (hword _).trans (if_pos rfl)⟩
  · have hword := State.word_setRch_clearBst hwf hi (State.tm_recharge_legal hs)
    exact ⟨rfl, (hword _).trans ((if_neg hother).trans (if_pos rfl)), (hword _).trans (if_pos rfl)⟩
  · have hword := State.word_setBst hwf hi (State.satInc_bst_legal hs hi)
    exact ⟨rfl, (hword _).trans ((if_neg hother).trans (not_not.mp hwindow)), (hword _).trans (if_pos rfl)⟩
  · have hword := State.word_setBst (x := 0) hwf hi rfl
    exact ⟨rfl, (hword _).trans ((if_neg hother).trans (not_not.mp hwindow)), (hword _).trans (if_pos rfl)⟩

end Sys2Proof.Machine

namespace Sys2Proof

/-! ### Counts from duty ratios (40 R170, R172; 46 R403) -/

section
variable {x y : F32} {n : I32}

/-- The magnitude of a finite value in units of the least subnormal, 2^-149 (exact). -/
def F32.scaled (x : F32) : Nat := x.mant * 2 ^ (x.quant - 851)

theorem F32.expo_eq (x : F32) : x.expo = x.mag / 8388608 := by
  rw [F32.expo, Nat.shiftRight_eq_div_pow]

theorem F32.frac_eq (x : F32) : x.frac = x.mag % 8388608 := by
  rw [F32.frac, F32.mag]
  omega

/-- The significand and its exponent rise together, the one within a binade, the other from binade to binade. -/
theorem F32.scaled_mono (h : x.mag ≤ y.mag) : x.scaled ≤ y.scaled := by
  have hmantx : x.mant < 16777216 := by
    rw [F32.mant, F32.frac_eq]
    split_ifs <;> omega
  rcases (Nat.div_le_div_right h : x.mag / 8388608 ≤ y.mag / 8388608).lt_or_eq with hlt | heq
  · rw [← F32.expo_eq, ← F32.expo_eq] at hlt
    have hmanty : 8388608 ≤ y.mant := by rw [F32.mant, if_neg (by omega)]; omega
    have hquanty : y.quant = y.expo + 850 := if_neg (by omega)
    rcases Nat.eq_zero_or_pos x.expo with h0 | h0
    · have hquantx : x.quant = 851 := if_pos h0
      have hmantx' : x.mant ≤ y.mant := by rw [F32.mant, if_pos h0, F32.frac_eq]; omega
      exact Nat.mul_le_mul hmantx' (Nat.pow_le_pow_right Nat.two_pos (by omega))
    · have hquantx : x.quant = x.expo + 850 := if_neg (by omega)
      calc x.scaled ≤ (8388608 * 2) * 2 ^ (x.quant - 851) := Nat.mul_le_mul_right _ hmantx.le
        _ = 8388608 * 2 ^ (x.quant - 851 + 1) := by rw [Nat.pow_succ]; ring
        _ ≤ y.scaled := Nat.mul_le_mul hmanty (Nat.pow_le_pow_right Nat.two_pos (by omega))
  · rw [← F32.expo_eq, ← F32.expo_eq] at heq
    have hfrac : x.frac ≤ y.frac := by rw [F32.expo_eq, F32.expo_eq] at heq; rw [F32.frac_eq, F32.frac_eq]; omega
    have hquant : x.quant = y.quant := by rw [F32.quant, F32.quant, heq]
    have hmant : x.mant ≤ y.mant := by rw [F32.mant, F32.mant, heq]; split_ifs <;> omega
    rw [F32.scaled, F32.scaled, hquant]
    exact Nat.mul_le_mul_right _ hmant

theorem F32.quant_ge (x : F32) : 851 ≤ x.quant := by
  unfold F32.quant
  split_ifs <;> omega

/-- Shifting by the difference of two exponents is dividing by the power of the second. -/
theorem shift_eq_mul_pow_div (m : Nat) {q : Nat} (hq : 851 ≤ q) :
    (if Nat.ble 1000 q = true then m <<< (q - 1000) else m >>> (1000 - q)) = m * 2 ^ (q - 851) / 2 ^ 149 := by
  split_ifs with h
  · have hexp : q - 851 = 149 + (q - 1000) := by have := Nat.le_of_ble_eq_true h; omega
    rw [hexp, Nat.shiftLeft_eq, Nat.pow_add, Nat.mul_left_comm, Nat.mul_div_cancel_left _ (Nat.two_pow_pos _)]
  · have hexp : 149 = (q - 851) + (1000 - q) := by rw [Nat.ble_eq] at h; omega
    rw [hexp, Nat.pow_add, Nat.mul_comm m, Nat.mul_div_mul_left _ _ (Nat.two_pow_pos _),
      Nat.shiftRight_eq_div_pow]

/-- The floor of a finite value is its magnitude in whole units. -/
theorem F32.of_floorI32 (h : x.floorI32 = some n) :
    x.isFinite = true ∧ n.toNat = x.scaled / 2 ^ 149 ∧ n.toNat < 2147483648 := by
  unfold F32.floorI32 at h
  simp only [shift_eq_mul_pow_div _ x.quant_ge] at h
  split at h
  · next hdomain =>
    simp only [Bool.and_eq_true, Nat.blt_eq] at hdomain
    obtain ⟨⟨⟨hfin, -⟩, -⟩, hlt⟩ := hdomain
    rw [← Option.some.inj h, BitVec.toNat_ofNat, Nat.mod_eq_of_lt (hlt.trans (by decide))]
    exact ⟨hfin, rfl, hlt⟩
  · cases h

/-- The significand of a positive number below 2^24, moved up to the 24 bits of a normal number. -/
theorem normalized_mem {m : Nat} (hpos : 0 < m) (hlt : m < 16777216) :
    Nat.log2 m ≤ 23 ∧ 8388608 ≤ m * 2 ^ (23 - Nat.log2 m) ∧ m * 2 ^ (23 - Nat.log2 m) < 16777216 := by
  have hlog : Nat.log2 m < 24 := (Nat.log2_lt hpos.ne').mpr hlt
  have hsplit : 2 ^ Nat.log2 m * 2 ^ (23 - Nat.log2 m) = 8388608 := by
    rw [← Nat.pow_add, Nat.add_sub_cancel' (Nat.le_of_lt_succ hlog)]
  refine ⟨Nat.le_of_lt_succ hlog, ?_, ?_⟩
  · rw [← hsplit]
    exact Nat.mul_le_mul_right _ (Nat.log2_self_le hpos.ne')
  · calc m * 2 ^ (23 - Nat.log2 m) < 2 ^ (Nat.log2 m + 1) * 2 ^ (23 - Nat.log2 m) :=
          Nat.mul_lt_mul_of_pos_right Nat.lt_log2_self (Nat.two_pow_pos _)
      _ = 16777216 := by rw [Nat.pow_succ, Nat.mul_right_comm, hsplit]

/-- A positive integer below 2^24 is rounded to itself. -/
theorem F32.roundMag_of_lt {m : Nat} (hpos : 0 < m) (hlt : m < 16777216) :
    F32.roundMag m 1000 false = (Nat.log2 m + 126) * 8388608 + m * 2 ^ (23 - Nat.log2 m) := by
  obtain ⟨hlog, -, hmost⟩ := normalized_mem hpos hlt
  have hquant : Nat.max (Nat.log2 m + 1000 - 23) 851 = Nat.log2 m + 977 :=
    (Nat.max_eq_left (by omega)).trans (by omega)
  have hble : Nat.ble (Nat.log2 m + 977) 1000 = true := Nat.ble_eq.mpr (by omega)
  have hshift : 1000 - (Nat.log2 m + 977) = 23 - Nat.log2 m := by omega
  have hbinade : Nat.log2 m + 977 - 851 = Nat.log2 m + 126 := Nat.add_sub_assoc (by decide) _
  rw [F32.roundMag, if_neg hpos.ne', hquant]
  simp only [hble, if_true, hshift, hbinade, Nat.shiftLeft_eq]
  exact Nat.min_eq_left (by omega)

/-- A normal number's magnitude from its exponent and its significand. -/
theorem F32.scaled_of_mag {e a : Nat} (he : 0 < e) (ha : 8388608 ≤ a) (ha' : a < 16777216)
    (h : x.mag = (e - 1) * 8388608 + a) : x.scaled = a * 2 ^ (e - 1) := by
  have hexpo : x.expo = e := by rw [F32.expo_eq]; omega
  have hmant : x.mant = a := by rw [F32.mant, if_neg (by omega), F32.frac_eq]; omega
  have hquant : x.quant = e + 850 := by rw [F32.quant, if_neg (by omega), hexpo]
  rw [F32.scaled, hmant, hquant, show e + 850 - 851 = e - 1 by omega]

theorem I32.toInt_eq_toNat_of_nonneg (h : 0 ≤ n.toInt) : n.toInt = n.toNat := by
  rw [BitVec.toInt_eq_toNat_cond] at h ⊢
  split at h
  · next hlt => exact if_pos hlt
  · omega

theorem F32.ofI32_of_nonneg (h : 0 ≤ n.toInt) :
    F32.ofI32 n = F32.ofMag false (F32.roundMag n.toNat 1000 false) := by
  rw [F32.ofI32, F32.ofInt, F32.round, I32.toInt_eq_toNat_of_nonneg h, Int.natAbs_natCast, decide_eq_false (by omega)]

theorem F32.roundMag_le (m e : Nat) (sticky : Bool) : F32.roundMag m e sticky ≤ 2139095040 := by
  unfold F32.roundMag
  split
  · exact Nat.zero_le _
  · exact Nat.min_le_right _ _

theorem F32.mag_ofI32 (h : 0 ≤ n.toInt) : (F32.ofI32 n).mag = F32.roundMag n.toNat 1000 false := by
  rw [F32.ofI32_of_nonneg h, Machine.F32.mag_ofMag ((F32.roundMag_le _ _ _).trans_lt (by decide))]

/-- Every count up to 2^24 is a binary32 (46 R403). -/
theorem F32.scaled_ofI32 (h : 0 ≤ n.toInt) (hle : n.toNat ≤ 16777216) :
    (F32.ofI32 n).scaled = n.toNat * 2 ^ 149 := by
  have hmag := F32.mag_ofI32 h
  rcases Nat.eq_zero_or_pos n.toNat with h0 | hpos
  · rw [BitVec.eq_of_toNat_eq (x := n) (y := 0) h0]
    decide
  · rcases hle.lt_or_eq with hlt | heq
    · obtain ⟨hlog, hleast, hmost⟩ := normalized_mem hpos hlt
      rw [F32.roundMag_of_lt hpos hlt] at hmag
      rw [F32.scaled_of_mag (e := Nat.log2 n.toNat + 127) (by omega) hleast hmost hmag, Nat.mul_assoc, ← Nat.pow_add]
      congr 2
      omega
    · rw [BitVec.eq_of_toNat_eq (x := n) (y := 16777216) heq]
      decide

end

end Sys2Proof

namespace Sys2Proof.Machine

/-! ### The counts of `ticks` (46 R403) -/

section
variable {s : State} {res n : I32}

theorem F32.mag_le_of_key {x y : F32} (hx : 0 ≤ x.key) (h : x.key ≤ y.key) : x.mag ≤ y.mag := by
  simp only [F32.key, Int.ofNat_eq_natCast] at hx h
  split_ifs at hx h <;> omega

/-- A count that is not negative gives an ordered range from zero. -/
theorem F32.zero_le_ofI32 (h : 0 ≤ res.toInt) : F32.zero.le (F32.ofI32 res) = true := by
  have hnum : (F32.ofI32 res).isNaN = false := by
    rw [F32.isNaN, F32.mag_ofI32 h, Bool.eq_false_iff, ne_eq, Nat.blt_eq]
    exact not_lt.mpr (F32.roundMag_le _ _ _)
  have hsign : (F32.ofI32 res).sign = false := by
    rw [F32.ofI32_of_nonneg h, F32.sign_ofMag ((F32.roundMag_le _ _ _).trans_lt (by decide))]
  have hzero : F32.zero.key = 0 := by decide
  exact F32.le_iff.mpr ⟨rfl, hnum, hzero.trans_le (F32.key_nonneg_iff.mpr (.inl hsign))⟩

/-- The clamp keeps a leg's count within a resolution that binary32 represents. -/
theorem tickOf_mem {d : F32} (h : 0 ≤ res.toInt) (hle : res.toNat ≤ 16777216)
    (hn : tickOf (F32.ofI32 res) d = some n) : 0 ≤ n.toInt ∧ n.toInt ≤ res.toInt := by
  have hrange := F32.zero_le_ofI32 h
  obtain ⟨hfin, hfloor, hlt⟩ := F32.of_floorI32 hn
  have hnum := (F32.isNaN_clamp hrange _).symm.trans (F32.isNaN_eq_false_of_isFinite hfin)
  obtain ⟨-, hlow, hhigh⟩ := F32.clamp_mem hnum hrange
  have hmag := F32.mag_le_of_key ((F32.ge_zero_iff (F32.isNaN_eq_false_of_isFinite hfin)).mp hlow)
    (F32.le_iff.mp hhigh).2.2
  have hcount : n.toNat ≤ res.toNat := by
    rw [hfloor]
    exact (Nat.div_le_div_right (F32.scaled_mono hmag)).trans_eq
      (by rw [F32.scaled_ofI32 h hle, Nat.mul_div_cancel _ (Nat.two_pow_pos _)])
  rw [BitVec.toInt_eq_toNat_of_lt (x := n) (by omega), I32.toInt_eq_toNat_of_nonneg h]
  omega

theorem State.ticks_mem {r : Legs F32} {d : Legs I32} (h : 0 ≤ (s.i Reg.pwm_resolution).toInt)
    (hle : (s.i Reg.pwm_resolution).toNat ≤ 16777216) (hd : s.ticks r = some d) :
    ∀ v ∈ [d.a, d.b, d.c], 0 ≤ v.toInt ∧ v.toInt ≤ (s.i Reg.pwm_resolution).toInt := by
  unfold State.ticks at hd
  dsimp only at hd
  split at hd
  · next ha hb hc =>
    cases hd
    exact forall_mem_legs.mpr ⟨tickOf_mem h hle ha, tickOf_mem h hle hb, tickOf_mem h hle hc⟩
  · cases hd

end

/-! ### The outcomes of `pm_voltage` (46 R400) -/

section
variable {s : State} {u F : Vec2}

/-- What `pm_voltage` can do with a finite voltage: the output without a bus voltage, a duty ratio without a floor, or
the emission of the counts of `ticks`. -/
def State.DrivesFinite (s : State) (F : Vec2) (t : State) : Prop :=
  t = s.noBus ∨ t = s.poison .floorDomain ∨
    ∃ (r : Legs F32) (d : Legs I32) (c : Clamped) (lim : Bool), s.ticks r = some d ∧ t = s.issue d c lim F

theorem State.pmVoltage_nonFinite (h : u.isFinite = false) : s.pmVoltage u F = s.poison .nonFiniteVoltage :=
  if_pos (by simp [h])

theorem State.pmVoltage_finite (h : u.isFinite = true) : s.DrivesFinite F (s.pmVoltage u F) := by
  rw [State.pmVoltage, if_neg (by simp [h])]
  split_ifs
  · exact .inl rfl
  · dsimp only
    cases hd : s.ticks (s.ratios (s.circularClamp u)).d with
    | none => exact .inr (.inl rfl)
    | some d => exact .inr (.inr ⟨_, d, _, _, hd, rfl⟩)

theorem State.resolution_nonneg (hs : s.sound = true) : 0 ≤ (s.i Reg.pwm_resolution).toInt :=
  Kind.intLegal_iff_toInt_nonneg.mp (State.legal_word s hs (n := 41) (k := .intNonNeg) rfl)

theorem State.minimal_pulse_nonneg (hs : s.sound = true) : 0 ≤ (s.i Reg.minimal_pulse).toInt :=
  Kind.intLegal_iff_toInt_nonneg.mp (State.legal_word s hs (n := 42) (k := .intNonNeg) rfl)

/-- Without a bus voltage the only stop is a second duty. -/
theorem State.reach_noBus_inRange (hs : s.sound = true) : State.Reach vsiRegs [.dutyTwice] s s.noBus :=
  ((State.Reach.refl _ _ s).andThen (State.reach_emitDuty_inRange _ (State.zeroDuty_ok hs)) rfl).clear _ rfl

/-- With counts the sink takes, the only stop of an emission is a second duty. -/
theorem State.reach_issue_inRange (d : Legs I32) (c : Clamped) (lim : Bool) (F : Vec2)
    (hd : SinkCall.ok (s.word 41) (.duty (s.bootDuties (s.minimalPulse d)).a (s.bootDuties (s.minimalPulse d)).b
      (s.bootDuties (s.minimalPulse d)).c) = true) :
    State.Reach vsiRegs [.dutyTwice] s (s.issue d c lim F) := by
  have hcounters : State.Reach vsiRegs [.dutyTwice] s ((s.bootstrap (s.minimalPulse d)).limiter lim) :=
    ((State.Reach.refl _ _ s).andThen (State.reach_bootstrap _) rfl nofun).andThen (State.reach_limiter _) rfl nofun
  rw [← hcounters.resolution] at hd
  exact (hcounters.andThen (State.reach_emitDuty_inRange _ hd) rfl).andThen (State.reach_storeVoltage _ _) rfl nofun

/-- Bootstrap retention keeps a count in range, where a recharge window has a top to lower it to. -/
theorem State.bootDuty_mem {i : Nat} {v : I32} (hres : 0 < (s.i Reg.pwm_resolution).toInt)
    (hmp : (s.i Reg.minimal_pulse).toInt ≤ (s.i Reg.pwm_resolution).toInt)
    (hv : 0 ≤ v.toInt ∧ v.toInt ≤ (s.i Reg.pwm_resolution).toInt) :
    0 ≤ (s.bootDuty i v).toInt ∧ (s.bootDuty i v).toInt ≤ (s.i Reg.pwm_resolution).toInt := by
  have hone : (1 : I32).toInt = 1 := rfl
  have hmax := I32.toInt_max (s.i Reg.minimal_pulse) 1
  unfold State.bootDuty State.rechargeTop
  split_ifs
  · rw [I32.toInt_min, I32.toInt_sub_of_nonneg hres.le (by omega), hmax, hone]
    omega
  · exact hv

/-- The minimum-pulse rule leaves every count in range: it clamps them, or has nothing to do with counts in range. -/
theorem State.minimalPulse_mem (hs : s.sound = true) {d : Legs I32}
    (hd : s.i Reg.minimal_pulse = 0 ∧ s.i Reg.clearance_zone = 0 →
      ∀ v ∈ [d.a, d.b, d.c], 0 ≤ v.toInt ∧ v.toInt ≤ (s.i Reg.pwm_resolution).toInt) :
    ∀ v ∈ [(s.minimalPulse d).a, (s.minimalPulse d).b, (s.minimalPulse d).c],
      0 ≤ v.toInt ∧ v.toInt ≤ (s.i Reg.pwm_resolution).toInt := by
  by_cases hnone : s.i Reg.minimal_pulse = 0 ∧ s.i Reg.clearance_zone = 0
  · rw [State.minimalPulse, pulseShift, if_pos hnone]
    exact hd hnone
  · have hres := State.resolution_nonneg hs
    have hmp := State.minimal_pulse_nonneg hs
    exact fun v hv => (fitsPulse_pulseShift s.lowside hnone hres hmp d v hv).mem hres hmp

theorem State.dutyOk_bootDuties (hres : 0 < (s.i Reg.pwm_resolution).toInt)
    (hmp : (s.i Reg.minimal_pulse).toInt ≤ (s.i Reg.pwm_resolution).toInt) {d : Legs I32}
    (hd : ∀ v ∈ [d.a, d.b, d.c], 0 ≤ v.toInt ∧ v.toInt ≤ (s.i Reg.pwm_resolution).toInt) :
    SinkCall.ok (s.word 41) (.duty (s.bootDuties d).a (s.bootDuties d).b (s.bootDuties d).c) = true := by
  obtain ⟨ha, hb, hc⟩ := forall_mem_legs.mp hd
  exact SinkCall.ok_duty_iff.mpr (forall_mem_legs.mpr
    ⟨State.bootDuty_mem hres hmp ha, State.bootDuty_mem hres hmp hb, State.bootDuty_mem hres hmp hc⟩)

theorem State.poison_unmodelled (h : s.tl.unmodelled = none) (why : Fault) :
    (s.poison why).tl.unmodelled = some why := by
  simp [h]

end

/-- Settles O54: the counts are in range after the minimum-pulse rule, and bootstrap retention keeps them so. -/
theorem voltageCountsInRange : Obligations.VoltageCountsInRange := by
  unfold Obligations.VoltageCountsInRange
  intro s u F hs hunmodelled hres hmp hexact
  have hnever : ∀ t, State.Reach vsiRegs [.dutyTwice] s t → t.tl.unmodelled ≠ some .dutyOutOfRange :=
    fun t hreach ht => by simpa [hunmodelled] using hreach.stops hs _ ht
  cases hfinite : u.isFinite with
  | false => rw [State.pmVoltage_nonFinite hfinite, State.poison_unmodelled hunmodelled]; decide
  | true =>
    rcases (State.pmVoltage_finite hfinite : s.DrivesFinite F _) with ht | ht | ⟨r, d, c, lim, hd, ht⟩
    · exact ht ▸ hnever _ (State.reach_noBus_inRange hs)
    · rw [ht, State.poison_unmodelled hunmodelled]; decide
    · have hnonneg := State.resolution_nonneg hs
      have hmem := State.minimalPulse_mem hs (d := d) (fun hnone => State.ticks_mem hnonneg
        ((hexact.resolve_left (not_not.mpr hnone.1)).resolve_left (not_not.mpr hnone.2)) hd)
      have hpos : 0 < (s.i Reg.pwm_resolution).toInt :=
        lt_of_le_of_ne hnonneg (fun hc => hres (BitVec.eq_of_toInt_eq hc.symm))
      have hpulse : (s.i Reg.minimal_pulse).toInt ≤ (s.i Reg.pwm_resolution).toInt := by
        rw [I32.toInt_eq_toNat_of_nonneg (State.minimal_pulse_nonneg hs), I32.toInt_eq_toNat_of_nonneg hnonneg]
        exact_mod_cast hmp
      exact ht ▸ hnever _ (State.reach_issue_inRange d c lim F (State.dutyOk_bootDuties hpos hpulse hmem))

/-! ### The emission of `pm_voltage` (46 R403, R405, R407) -/

section
variable {s t u : State} {d : Legs I32}

/-- `t` comes from `s` by one call of the duty sink, stored, and changes of the record. -/
structure State.Emits (s : State) (d : Legs I32) (t : State) : Prop where
  sinks : t.out.sinks = s.out.sinks ++ [.duty d.a d.b d.c]
  tl : t.tl = { s.tl with emitted := true }
  counts : t.word 288 = d.a ∧ t.word 289 = d.b ∧ t.word 290 = d.c

theorem State.emits_emitDuty (hs : s.sound = true) (hd : SinkCall.ok (s.word 41) (.duty d.a d.b d.c) = true)
    (he : s.tl.emitted = false) : s.Emits d (s.emitDuty d) where
  sinks := congrArg Outputs.sinks (State.onlyRecord_emitDuty d hd he).out
  tl := (State.onlyRecord_emitDuty d hd he).tl
  counts := State.word_emitDuty_counts (State.wf_of_sound hs) d hd he

theorem State.Emits.after (h : s.OnlyRecord t) (hu : t.Emits d u) : s.Emits d u where
  sinks := by rw [hu.sinks, h.out]
  tl := by rw [hu.tl, h.tl]
  counts := hu.counts

theorem State.Emits.before {W : Ranges} {L : List Fault} (h : s.Emits d t) (honly : t.OnlyRecord u)
    (hreach : State.Reach W L t u) (hW : ∀ n ∈ [288, 289, 290], W.has n = false := by decide) : s.Emits d u where
  sinks := by rw [honly.out, h.sinks]
  tl := by rw [honly.tl, h.tl]
  counts := by
    obtain ⟨ha, hb, hc⟩ := forall_mem_legs.mp hW
    rw [hreach.word 288 ha, hreach.word 289 hb, hreach.word 290 hc]
    exact h.counts

theorem State.onlyRecord_bootstrap (hs : s.sound = true) (d : Legs I32) : s.OnlyRecord (s.bootstrap d) :=
  have hs0 := (State.reach_bootLeg 0 d.a (by decide)).sound hs
  have hs1 := (State.reach_bootLeg 1 d.b (by decide)).sound hs0
  ((State.onlyRecord_bootLeg hs (by decide) d.a).trans (State.onlyRecord_bootLeg hs0 (by decide) d.b)).trans
    (State.onlyRecord_bootLeg hs1 (by decide) d.c)

theorem State.onlyRecord_limiter (hs : s.sound = true) (lim : Bool) : s.OnlyRecord (s.limiter lim) := by
  unfold State.limiter
  split_ifs
  · have hmarked : (s.setFlag Reg.vsi_lim true).sound = true :=
      ((State.Reach.refl vsiRegs [] s).setFlag _ _ rfl rfl).sound hs
    exact ((State.OnlyRecord.refl s).setFlag _ _).set Reg.vsi_lim_tm _
      (State.Reach.intLegal_satInc (State.legal_word _ hmarked (n := 312) (k := .intNonNeg) rfl))
  · exact ((State.OnlyRecord.refl s).setFlag _ _).set _ _

theorem State.onlyRecord_storeVoltage (v F : Vec2) : s.OnlyRecord (s.storeVoltage v F) :=
  ((((State.OnlyRecord.refl s).setF _ _).setF _ _).setF _ _).setF _ _

theorem State.reach_storeVoltage_frame (v F : Vec2) : State.Reach [(307, 310)] [] s (s.storeVoltage v F) :=
  ((((State.Reach.refl _ _ s).setF _ _ rfl rfl).setF _ _ rfl rfl).setF _ _ rfl rfl).setF _ _ rfl rfl

theorem State.emits_noBus (hs : s.sound = true) (he : s.tl.emitted = false) : s.Emits ⟨0, 0, 0⟩ s.noBus :=
  (State.emits_emitDuty (d := ⟨0, 0, 0⟩) hs (State.zeroDuty_ok hs) he).before ((State.OnlyRecord.refl _).clear _ rfl)
    (W := [(307, 312)]) (L := []) ((State.Reach.refl _ _ _).clear _ rfl)

/-- The first emission of a tick, of counts the sink takes. -/
theorem State.emits_issue (hs : s.sound = true) (he : s.tl.emitted = false) (d : Legs I32) (c : Clamped) (lim : Bool)
    (F : Vec2) {b : Legs I32} (hb : s.bootDuties (s.minimalPulse d) = b)
    (hok : SinkCall.ok (s.word 41) (.duty b.a b.b b.c) = true) : s.Emits b (s.issue d c lim F) := by
  have hcounters : State.Reach vsiRegs [] s ((s.bootstrap (s.minimalPulse d)).limiter lim) :=
    (State.reach_bootstrap _).trans (State.reach_limiter _)
  have honly : s.OnlyRecord ((s.bootstrap (s.minimalPulse d)).limiter lim) :=
    (State.onlyRecord_bootstrap hs _).trans (State.onlyRecord_limiter ((State.reach_bootstrap _).sound hs) lim)
  rw [← hcounters.resolution] at hok
  rw [State.issue, hb]
  exact ((State.emits_emitDuty (hcounters.sound hs) hok (honly.tl ▸ he)).before (State.onlyRecord_storeVoltage c.u F)
    (State.reach_storeVoltage_frame c.u F)).after honly

/-- Outside the recharge windows bootstrap retention lowers no duty. -/
theorem State.bootDuties_eq_self (hs : s.sound = true) (hrch : ∀ i < 3, s.word (Reg.vsi_rch i).num = 0) (d : Legs I32) :
    s.bootDuties d = d := by
  have hleg : ∀ i < 3, ∀ v, s.bootDuty i v = v := fun i hi v =>
    (State.bootDuty_eq hs hi v).trans (if_neg (not_not.mpr (hrch i hi)))
  rw [State.bootDuties, hleg 0 (by decide), hleg 1 (by decide), hleg 2 (by decide)]

/-- With a resolution of 0 the only count in range is 0. -/
theorem State.minimalPulse_zeroResolution (hs : s.sound = true) (hres : s.word Reg.pwm_resolution.num = 0)
    {r : Legs F32} (hd : s.ticks r = some d) : s.minimalPulse d = ⟨0, 0, 0⟩ := by
  have hi : s.i Reg.pwm_resolution = 0 := hres
  have hzero : ∀ v : I32, 0 ≤ v.toInt ∧ v.toInt ≤ (s.i Reg.pwm_resolution).toInt → v = 0 := fun v hv =>
    BitVec.eq_of_toInt_eq (le_antisymm (hi ▸ hv.2) hv.1)
  have hmem := State.minimalPulse_mem hs (fun _ => State.ticks_mem (State.resolution_nonneg hs) (by rw [hi]; decide) hd)
  generalize s.minimalPulse d = m at hmem
  obtain ⟨a, b, c⟩ := m
  obtain ⟨ha, hb, hc⟩ := forall_mem_legs.mp hmem
  rw [hzero a ha, hzero b hb, hzero c hc]

end

/-- Settles O55: what `pm_voltage` emits at resolution 0 is (0, 0, 0), and its two stops come before the emission. -/
theorem zeroResolutionZeroDuty : Obligations.ZeroResolutionZeroDuty := by
  unfold Obligations.ZeroResolutionZeroDuty
  intro s u F hs hunmodelled he hres hrch t
  have hstops : u.isFinite = false → t = s.poison .nonFiniteVoltage := State.pmVoltage_nonFinite
  have hdrives : u.isFinite = true → s.DrivesFinite F t := State.pmVoltage_finite
  clear_value t
  have hemits : s.Emits ⟨0, 0, 0⟩ t → t.tl.unmodelled = none ∧
      t.out.sinks = s.out.sinks ++ [.duty 0 0 0] ∧ t.word 288 = 0 ∧ t.word 289 = 0 ∧ t.word 290 = 0 := by
    intro h
    exact ⟨(congrArg TickLocal.unmodelled h.tl).trans hunmodelled, h.sinks, h.counts⟩
  cases hfinite : u.isFinite with
  | false =>
    have hstop : t.tl.unmodelled = some .nonFiniteVoltage := hstops hfinite ▸ State.poison_unmodelled hunmodelled _
    simp [hstop]
  | true =>
    rcases hdrives hfinite with rfl | rfl | ⟨r, d, c, lim, hd, rfl⟩
    · obtain ⟨hnone, hduty⟩ := hemits (State.emits_noBus hs he)
      simp [hnone, hduty]
    · simp [hunmodelled]
    · have hzero : s.bootDuties (s.minimalPulse d) = ⟨0, 0, 0⟩ := by
        rw [State.bootDuties_eq_self hs hrch, State.minimalPulse_zeroResolution hs hres hd]
      obtain ⟨hnone, hduty⟩ := hemits (State.emits_issue hs he d c lim F hzero (State.zeroDuty_ok hs))
      simp [hnone, hduty]

end Sys2Proof.Machine

end

section
/-!
PROOFS. The command FSM (spec/47_command_fsm.md R430, R431, R441, R442, R448-R451): the gate, what consuming a request
leaves, and whole TICKs of HALT, LU_INITIATE and LU_SHUTDOWN.
-/

namespace Sys2Proof.Machine

/-! ### The gate (47 R431) -/

section
variable {s : State}

theorem State.fsmIs_idle_iff : s.fsmIs .idle = true ↔ s.word 464 = 0 := beq_iff_eq

theorem State.modeIs_disabled_iff : s.modeIs .disabled = true ↔ s.word 320 = 0 := beq_iff_eq

/-- The requests that start a procedure on a motor at rest. -/
theorem State.gate_atRest {q : FsmState}
    (hq : q ∈ [FsmState.zeroDrift, .powerStageTest, .adjustCurrent, .probeConstR, .probeConstL, .luInitiate]) :
    s.gate q = true ↔ s.word 464 = 0 ∧ s.word 320 = 0 := by
  have hgate : s.gate q = (s.fsmIs .idle && s.modeIs .disabled) := by
    simp only [List.mem_cons, List.not_mem_nil, or_false] at hq
    rcases hq with rfl | rfl | rfl | rfl | rfl | rfl <;> simp [State.gate]
  rw [hgate, Bool.and_eq_true, State.fsmIs_idle_iff, State.modeIs_disabled_iff]

/-- The requests that need the motor driven. -/
theorem State.gate_driven {q : FsmState} (hq : q ∈ [FsmState.luShutdown, .probeConstE, .probeConstJ]) :
    s.gate q = true ↔ s.word 464 = 0 ∧ s.word 320 ≠ 0 := by
  have hgate : s.gate q = (s.fsmIs .idle && !s.modeIs .disabled) := by
    simp only [List.mem_cons, List.not_mem_nil, or_false] at hq
    rcases hq with rfl | rfl | rfl <;> rfl
  rw [hgate, Bool.and_eq_true, Bool.not_eq_true', Bool.eq_false_iff, ne_eq, State.fsmIs_idle_iff,
    State.modeIs_disabled_iff]

/-- Outside IDLE the gate accepts HALT only. -/
theorem State.gate_busy (h : s.word 464 ≠ 0) {q : FsmState} (hq : q ≠ .halt) : s.gate q = false := by
  have hidle : s.fsmIs .idle = false := Bool.eq_false_iff.mpr (mt State.fsmIs_idle_iff.mp h)
  cases q with
  | halt => exact absurd rfl hq
  | _ => simp [State.gate, hidle]

end

/-- Settles O18: the two families of requests the gate treats alike, HALT, and the word of a request for IDLE decoded. -/
theorem gateTable : Obligations.GateTable := by
  unfold Obligations.GateTable
  exact fun s => ⟨fun _ => State.gate_atRest, fun _ => State.gate_driven, rfl, by decide⟩

/-! ### Consuming a request (47 R430) -/

section
variable {s : State}

/-- A transfer of the command FSM writes the state, and zeroes the phase and both timers. -/
theorem State.word_enterState_eq (hwf : s.regs.wf = true) (q : FsmState) (n : Nat) :
    (s.enterState q).word n =
      if n = 464 then q.code else if n = 465 ∨ n = 468 ∨ n = 469 then 0 else s.word n := by
  have h1 := State.wf_set hwf Reg.fsm_state q.code
  have h2 := State.wf_set h1 Reg.fsm_phase 0
  have h3 := State.wf_set h2 Reg.tm_value 0
  rw [State.enterState, State.word_setLegal h3 (by decide) (by decide), State.word_setLegal h2 (by decide) (by decide),
    State.word_setLegal h1 (by decide) (by decide), State.word_set hwf (FsmState.code_legal q)]
  grind

theorem State.onlyRecord_enterState (q : FsmState) : s.OnlyRecord (s.enterState q) :=
  ((((State.OnlyRecord.refl s).set Reg.fsm_state _ (FsmState.code_legal q)).set Reg.fsm_phase 0).set
    Reg.tm_value 0).set Reg.tm_end 0

/-- The request slot emptied. -/
def State.slotEmptied (s : State) : State := s.set Reg.fsm_req 0

theorem State.word_slotEmptied (hwf : s.regs.wf = true) (n : Nat) :
    s.slotEmptied.word n = if n = 466 then 0 else s.word n :=
  State.word_setLegal hwf (r := Reg.fsm_req) (by decide) (by decide) n

/-- An accepted request other than HALT: it clears the fault code and enters its state. -/
def State.requestTaken (s : State) (q : FsmState) : State :=
  (s.slotEmptied.set Reg.fsm_errno Errno.ok.code).enterState q

theorem State.reach_requestTaken (q : FsmState) : State.Reach consumeRegs [] s (s.requestTaken q) :=
  (((State.Reach.refl _ _ s).setConst Reg.fsm_req 0).setConst Reg.fsm_errno Errno.ok.code).andThen
    (State.reach_enterState q)

theorem State.onlyRecord_requestTaken (q : FsmState) : s.OnlyRecord (s.requestTaken q) :=
  (((State.OnlyRecord.refl s).set Reg.fsm_req 0).set Reg.fsm_errno Errno.ok.code).trans
    (State.onlyRecord_enterState q)

theorem State.word_requestTaken (hwf : s.regs.wf = true) (q : FsmState) :
    (s.requestTaken q).word 464 = q.code ∧ (s.requestTaken q).word 465 = 0 ∧ (s.requestTaken q).word 466 = 0 ∧
      (s.requestTaken q).word 467 = 0 ∧ (s.requestTaken q).word 468 = 0 ∧ (s.requestTaken q).word 469 = 0 := by
  have hwf1 : s.slotEmptied.regs.wf = true := State.wf_set hwf _ _
  have hword : ∀ n, (s.requestTaken q).word n = if n = 464 then q.code else if n = 465 ∨ n = 468 ∨ n = 469 then 0
      else if n = 467 then 0 else if n = 466 then 0 else s.word n := fun n => by
    rw [State.requestTaken, State.word_enterState_eq (State.wf_set hwf1 _ _),
      State.word_setLegal hwf1 (by decide) (by decide), State.word_slotEmptied hwf]
    rfl
  exact ⟨hword 464, hword 465, hword 466, hword 467, hword 468, hword 469⟩

theorem FsmState.code_ne_zero {q : FsmState} (h : q ≠ .idle) : q.code ≠ 0 := fun hcode =>
  h (Option.some.inj ((FsmState.ofWord_code q).symm.trans (congrArg FsmState.ofWord hcode)))

/-- The gate looks at the state and the lookup mode, not at the slot. -/
theorem State.gate_slotEmptied (q : FsmState) : s.slotEmptied.gate q = s.gate q := by
  have hword : ∀ n, n ≠ 466 → s.slotEmptied.word n = s.word n := fun n hn => State.word_set_other hn nofun
  unfold State.gate State.fsmIs State.modeIs
  rw [hword 464 (by decide), hword 320 (by decide)]

/-- A pending request other than HALT meets the gate. -/
theorem State.consumeRequest_gated {q : FsmState} (hidle : q ≠ .idle) (hhalt : q ≠ .halt) (h : s.word 466 = q.code) :
    s.consumeRequest = if s.gate q = true then s.requestTaken q else s.slotEmptied := by
  have hslot : s.word Reg.fsm_req.num = q.code := h
  rw [State.consumeRequest, hslot, if_neg (FsmState.code_ne_zero hidle), FsmState.ofWord_code, ← State.gate_slotEmptied]
  exact if_neg hhalt

theorem State.consumeRequest_accepted {q : FsmState} (hidle : q ≠ .idle) (hhalt : q ≠ .halt) (h : s.word 466 = q.code)
    (hgate : s.gate q = true) : s.consumeRequest = s.requestTaken q := by
  rw [State.consumeRequest_gated hidle hhalt h, if_pos hgate]

theorem State.consumeRequest_rejected {q : FsmState} (hidle : q ≠ .idle) (hhalt : q ≠ .halt) (h : s.word 466 = q.code)
    (hgate : s.gate q = false) : s.consumeRequest = s.slotEmptied := by
  rw [State.consumeRequest_gated hidle hhalt h, if_neg (by simp [hgate])]

/-- A HALT outside HALT is taken. -/
theorem State.consumeRequest_enterHalt (h : s.word 466 = FsmState.halt.code)
    (hstate : s.word 464 ≠ FsmState.halt.code) : s.consumeRequest = s.haltTaken := by
  have hfsm : s.fsmIs .halt = false := beq_eq_false_iff_ne.mpr hstate
  rw [State.consumeRequest_halt h, hfsm]
  rfl

/-- A HALT in HALT only empties the slot. -/
theorem State.consumeRequest_haltInHalt (h : s.word 466 = FsmState.halt.code)
    (hstate : s.word 464 = FsmState.halt.code) : s.consumeRequest = s.slotEmptied := by
  have hfsm : s.fsmIs .halt = true := beq_iff_eq.mpr hstate
  rw [State.consumeRequest_halt h, hfsm]
  rfl

end

/-- Settles O19: HALT outside and inside HALT, and another request accepted or rejected by the gate. -/
theorem requestConsumption : Obligations.RequestConsumption := by
  unfold Obligations.RequestConsumption
  intro s q hs hidle hreq
  have hwf := State.wf_of_sound hs
  have hframe : State.agreesOff [(464, 469)] s s.consumeRequest := State.reach_consumeRequest.word
  have hemptied : s.slotEmptied.word 466 = 0 := State.word_slotEmptied hwf 466
  have hkept : ∀ n, n ≠ 466 → s.slotEmptied.word n = s.word n := fun n hn =>
    (State.word_slotEmptied hwf n).trans (if_neg hn)
  by_cases hhalt : q = .halt
  · subst hhalt
    by_cases hstate : s.word 464 = FsmState.halt.code
    · rw [State.consumeRequest_haltInHalt hreq hstate] at hframe ⊢
      simpa [hemptied, hframe, hstate, hkept 467] using hkept
    · rw [State.consumeRequest_enterHalt hreq hstate] at hframe ⊢
      obtain ⟨h464, h465, h466⟩ := State.word_haltTaken hwf
      have hentered := State.word_enterState_eq (s := s.slotEmptied) (State.wf_set hwf _ _) .halt
      have h467 : s.haltTaken.word 467 = s.word 467 := State.reach_haltTaken.word 467 (by decide)
      have h468 : s.haltTaken.word 468 = 0 := hentered 468
      have h469 : s.haltTaken.word 469 = 0 := hentered 469
      simp [h464, h465, h466, h467, h468, h469, hframe, hstate]
  · cases hgate : s.gate q with
    | false =>
      rw [State.consumeRequest_rejected hidle hhalt hreq hgate] at hframe ⊢
      simpa [hemptied, hframe, hhalt] using hkept
    | true =>
      rw [State.consumeRequest_accepted hidle hhalt hreq hgate] at hframe ⊢
      obtain ⟨h464, h465, h466, h467, h468, h469⟩ := State.word_requestTaken hwf q
      simp [h464, h465, h466, h467, h468, h469, hframe, hhalt]

/-! ### PROBE_CONST_J (47 R448) -/

section
variable {s : State}

/-- The FSM step that takes an accepted request: the requested state's phase 0. -/
theorem State.fsmStep_accepted {q : FsmState} (hidle : q ≠ .idle) (hhalt : q ≠ .halt) (h : s.word 466 = q.code)
    (hgate : s.gate q = true) : s.fsmStep = (s.requestTaken q).runState := by
  rw [State.fsmStep, State.consumeRequest_accepted hidle hhalt h hgate]

theorem State.runState_probeJ (h : s.word 464 = FsmState.probeConstJ.code) : s.runState = s.runProbeJ := by
  rw [State.runState, show s.word Reg.fsm_state.num = FsmState.probeConstJ.code from h, FsmState.ofWord_code]

theorem State.runState_shutdown (h : s.word 464 = FsmState.luShutdown.code) : s.runState = s.runShutdown := by
  rw [State.runState, show s.word Reg.fsm_state.num = FsmState.luShutdown.code from h, FsmState.ofWord_code]

/-- An accepted PROBE_CONST_J returns to IDLE at once. -/
theorem State.fsmStep_probeJ (hwf : s.regs.wf = true) (hreq : s.word 466 = FsmState.probeConstJ.code)
    (hgate : s.gate .probeConstJ = true) : s.fsmStep = (s.requestTaken .probeConstJ).enterState .idle := by
  obtain ⟨h464, h465, -⟩ := State.word_requestTaken hwf .probeConstJ
  rw [State.fsmStep_accepted (by decide) (by decide) hreq hgate, State.runState_probeJ h464]
  exact if_pos (beq_iff_eq.mpr h465)

end

/-- Settles O30: accepted, the request enters PROBE_CONST_J and from there IDLE; rejected, it empties the slot. -/
theorem inertiaProbeDoesNothing : Obligations.InertiaProbeDoesNothing := by
  unfold Obligations.InertiaProbeDoesNothing
  intro s hs hstate hreq
  have hwf := State.wf_of_sound hs
  have hgate : s.gate .probeConstJ = true ↔ s.word 464 = 0 ∧ s.word 320 ≠ 0 := State.gate_driven (by decide)
  by_cases hdriven : s.word 320 ≠ 0
  · have htaken : State.Reach consumeRegs [] s (s.requestTaken .probeConstJ) := State.reach_requestTaken _
    obtain ⟨-, -, h466, h467, -, -⟩ := State.word_requestTaken hwf .probeConstJ
    have hentered := State.word_enterState_eq (State.wf_of_sound (htaken.sound hs)) .idle
    have hrecord := (State.onlyRecord_requestTaken (s := s) .probeConstJ).trans (State.onlyRecord_enterState .idle)
    rw [State.fsmStep_probeJ hwf hreq (hgate.mpr ⟨hstate, hdriven⟩), if_pos hdriven]
    refine ⟨fun n hn => ?_, hrecord.out, hentered 464, (hentered 466).trans h466, hentered 465,
      (hentered 467).trans h467, hentered 468, hentered 469⟩
    simp only [List.mem_cons, List.not_mem_nil, or_false, not_or] at hn
    rw [hentered, if_neg hn.1, if_neg (by omega), htaken.word n (Ranges.has_cons_false.mpr ⟨by omega, rfl⟩)]
  · have hrejected : s.gate .probeConstJ = false := Bool.eq_false_iff.mpr fun h => hdriven (hgate.mp h).2
    have hempty := State.word_slotEmptied hwf
    have hstep : s.fsmStep = s.slotEmptied := by
      rw [State.fsmStep, State.consumeRequest_rejected (by decide) (by decide) hreq hrejected,
        State.runState_idle ((hempty 464).trans hstate)]
    have hrecord : s.OnlyRecord s.slotEmptied := (State.OnlyRecord.refl s).set _ _
    rw [hstep, if_neg hdriven]
    refine ⟨fun n hn => ?_, hrecord.out, (hempty 464).trans hstate, hempty 466, hempty 465, hempty 467, hempty 468,
      hempty 469⟩
    rw [hempty, if_neg (fun hc => hn (by simp [hc]))]

/-! ### POWER_STAGE_TEST's pattern (47 R442) -/

/-- Settles O60: the three arms of the classification; a fault writes the request slot and the fault code only. -/
theorem powerStagePatterns : Obligations.PowerStagePatterns := by
  unfold Obligations.PowerStagePatterns
  intro s hs
  have hraise : ∀ e : Errno, (s.raise e false).word 466 = FsmState.halt.code ∧
      (s.raise e false).word 464 = s.word 464 ∧ State.agreesOff [(464, 469)] s (s.raise e false) := fun e =>
    ⟨State.request_raise_now hs e (.inr rfl), (State.reach_raise e false).word 464 (by decide),
      ((State.reach_raise e false).mono : State.Reach [(464, 469)] [] _ _).word⟩
  have hdone := State.word_enterState_eq (State.wf_of_sound hs) .halt
  by_cases hhealthy : s.word 486 = 0x1FF
  · have hclass : s.pstClassify = s.enterState .halt := if_pos hhealthy
    have hreach : State.Reach [(464, 469)] [] s (s.enterState .halt) := (State.reach_enterState _).mono
    rw [hclass]
    exact ⟨fun _ => ⟨hdone 464, hdone 465, hdone 466, hdone 467⟩, fun h => absurd (hhealthy.symm.trans h) (by decide),
      fun h => absurd hhealthy h, fun h => absurd hhealthy h, hreach.word⟩
  · have hfault : s.pstClassify = if s.word 486 = 0x111 then s.raise .noMotorConnected false
        else s.raise .powerStageFault false := if_neg hhealthy
    rw [hfault]
    by_cases hmotor : s.word 486 = 0x111
    · obtain ⟨h466, h464, hframe⟩ := hraise .noMotorConnected
      rw [if_pos hmotor]
      exact ⟨fun h => absurd h hhealthy, fun _ => rfl, fun _ h => absurd hmotor h, fun _ => ⟨h466, h464⟩, hframe⟩
    · obtain ⟨h466, h464, hframe⟩ := hraise .powerStageFault
      rw [if_neg hmotor]
      exact ⟨fun h => absurd h hhealthy, fun h => absurd h hmotor, fun _ _ => rfl, fun _ => ⟨h466, h464⟩, hframe⟩

/-! ### ZERO_DRIFT's result (47 R441) -/

section
variable {s : State}

/-- What ZERO_DRIFT stores, phase by phase: the old offset less the phase's mean. -/
structure State.OffsetsStored (s t : State) : Prop where
  frame : State.Reach [(48, 48), (50, 50), (52, 52)] [] s t
  phaseA : t.HoldsF (Reg.adjust_IA 0) ((s.f (Reg.adjust_IA 0)).sub (s.meanAcc 0))
  phaseB : t.HoldsF (Reg.adjust_IB 0) ((s.f (Reg.adjust_IB 0)).sub (s.meanAcc 1))
  phaseC : if s.threeSensors then t.HoldsF (Reg.adjust_IC 0) ((s.f (Reg.adjust_IC 0)).sub (s.meanAcc 2))
    else t.word 52 = s.word 52

theorem State.offsetsStored (hwf : s.regs.wf = true) : s.OffsetsStored s.storeOffsets := by
  obtain ⟨hA, hB⟩ := State.holdsF_setF_setF hwf (k := 48) (j := 50) (by decide) (by decide)
    ((s.f (Reg.adjust_IA 0)).sub (s.meanAcc 0)) ((s.f (Reg.adjust_IB 0)).sub (s.meanAcc 1))
  refine ⟨(((State.Reach.refl _ _ s).setF _ _).setF _ _).when _ _ (fun u => (State.Reach.refl _ _ u).setF _ _),
    hA.of_word ?_, hB.of_word ?_, ?_⟩
  · exact State.word_when fun _ => State.word_setF_ne _ (by decide) (by decide)
  · exact State.word_when fun _ => State.word_setF_ne _ (by decide) (by decide)
  · unfold State.storeOffsets State.when
    split
    · exact State.holdsF_setF (State.wf_setF (State.wf_setF hwf _ _) _ _) 52 _
    · rw [State.word_setF_ne _ (by decide) (by decide), State.word_setF_ne _ (by decide) (by decide)]

theorem State.threeSensors_iff : s.threeSensors = true ↔ s.word Reg.config_IFB.num = 1 ∨ s.word Reg.config_IFB.num = 3 := by
  simp [State.threeSensors]

end

/-- Settles O59: the three arms of `zd_finish`. -/
theorem zeroDriftFaultStoresNothing : Obligations.ZeroDriftFaultStoresNothing := by
  unfold Obligations.ZeroDriftFaultStoresNothing
  intro s hs
  have hwf := State.wf_of_sound hs
  refine ⟨fun hempty => ?_, fun hsamples hbad => ?_, fun hsamples hgood => ?_⟩
  · have hfinish : s.zdFinish = s.enterState .halt := if_pos hempty
    rw [hfinish]
    exact ⟨State.word_enterState_eq hwf .halt 464, (State.reach_enterState .halt).word⟩
  · have hfinish : s.zdFinish = s.raise .zeroDriftFault false := (if_neg hsamples).trans (if_pos hbad)
    rw [hfinish]
    exact ⟨rfl, State.request_raise_now hs _ (.inr rfl), (State.reach_raise _ _).word⟩
  · intro stored
    have hfinish : s.zdFinish = s.storeOffsets.enterState .halt :=
      (if_neg hsamples).trans (if_neg (by simp [hgood]))
    have hoffsets := State.offsetsStored hwf
    have hentered : State.Reach fsmRegs [] s.storeOffsets (s.storeOffsets.enterState .halt) := State.reach_enterState _
    have hhalt := State.word_enterState_eq (State.wf_of_sound (hoffsets.frame.sound hs)) .halt 464
    rw [hfinish]
    refine ⟨hhalt, ?_, fun p hp => ?_, ?_, ?_⟩
    · rw [hentered.word 467 (by decide), hoffsets.frame.word 467 (by decide)]
    · simp only [List.mem_cons, List.not_mem_nil, or_false] at hp
      rcases hp with rfl | rfl
      · exact (hoffsets.phaseA.of_word (hentered.word 48 (by decide))).2
      · exact (hoffsets.phaseB.of_word (hentered.word 50 (by decide))).2
    · have hC := hoffsets.phaseC
      simp only [State.threeSensors_iff] at hC
      split_ifs at hC ⊢
      · exact (hC.of_word (hentered.word 52 (by decide))).2
      · exact (hentered.word 52 (by decide)).trans hC
    · have hframe : State.Reach [(48, 48), (50, 50), (52, 52), (464, 465), (468, 469)] [] s
          (s.storeOffsets.enterState .halt) := hoffsets.frame.mono.trans hentered.mono
      exact hframe.word

/-! ### The inertia constant and the pole pairs (47 R448) -/

theorem State.word_request {s : State} (q : FsmState) {n : Nat} (hn : n ≠ 466) : (s.request q).word n = s.word n := by
  unfold State.request
  split
  · rfl
  · exact State.word_set_other hn nofun

/-- A TICK outside a GUARD keeps its frame, and one inside is refused. -/
theorem exec_tick_word {s t : State} {fb : Feedback} (hs : s.sound = true) {n : Nat}
    (hn : tickRegs.has n = false) (h : exec (.tick fb) s = .next t) : t.word n = s.word n := by
  cases hguard : s.guardOpen with
  | false => exact (tickFrame s t fb hs hguard h).1 n hn
  | true =>
    rw [exec_tick_of_guardOpen hguard] at h
    cases h
    exact s.startOp_word n

theorem execRegRead_word {s t : State} {reg : BitVec 9} (h : execRegRead reg s = .next t) (n : Nat) :
    t.word n = s.word n := by
  unfold execRegRead at h
  split at h <;> cases h <;> exact s.startOp_word n

/-- A REG_WRITE is refused, or the store of a value. -/
theorem execRegWrite_word {s t : State} {reg : BitVec 9} {v : Word} (h : execRegWrite reg v s = .next t) :
    (∀ n, t.word n = s.word n) ∨ t = s.startOp.store reg.toNat v := by
  unfold execRegWrite State.hostWrite at h
  split_ifs at h <;> cases h
  · exact .inr rfl
  · exact .inl s.startOp_word
  · exact .inl s.startOp_word

/-- Settles O22: a TICK's frame leaves both registers out, a request writes its slot, and a REG_WRITE the register it
names, with `fsm_phase` beside `fsm_state`. -/
theorem inertiaOnlyByHostWrite : Obligations.InertiaOnlyByHostWrite := by
  unfold Obligations.InertiaOnlyByHostWrite
  intro i s t n hs hn ht hchanged
  have hrequest : ∀ q : FsmState, (s.startOp.request q).word n = s.word n := fun q =>
    (State.word_request q (by omega)).trans (s.startOp_word n)
  cases i with
  | tick fb =>
    exact absurd (exec_tick_word hs (by rcases hn with rfl | rfl <;> decide) ht) hchanged
  | regRead reg => exact absurd (execRegRead_word ht n) hchanged
  | regWrite reg v =>
    rcases execRegWrite_word ht with hsame | rfl
    · exact absurd (hsame n) hchanged
    · have hwf : s.startOp.regs.wf = true := by simpa using State.wf_of_sound hs
      by_cases hreg : n = reg.toNat
      · exact ⟨reg, v, rfl, hreg.symm, (State.word_store _ hwf _ _ _).trans (if_pos hreg)⟩
      · exact absurd ((State.word_store_other _ _ _ hreg (fun _ => by omega)).trans (s.startOp_word n)) hchanged
  | _ => cases ht; exact absurd (hrequest _) hchanged

end Sys2Proof.Machine

end

section
/-!
PROOFS. Whole TICKs of the command FSM that enter, serve or leave HALT, or start the lookup FSM (spec/47_command_fsm.md
R449-R451; spec/42_lu_fsm.md R230, R240; spec/60_exceptions.md R507, R508).
-/

namespace Sys2Proof.Machine

/-! ### The outputs before S6 (41 R200) -/

section
variable {s : State}

@[simp] theorem State.raise_out (e : Errno) (early : Bool) : (s.raise e early).out = s.out := by
  unfold State.raise
  split
  · exact (State.onlyRecord_recordErrno e).out
  · exact ((State.onlyRecord_recordErrno e).set Reg.fsm_req FsmState.halt.code).out

@[simp] theorem State.raise_bridge (e : Errno) (early : Bool) : (s.raise e early).bridge = s.bridge := by
  unfold State.raise
  split
  · exact (State.onlyRecord_recordErrno e).bridge
  · exact ((State.onlyRecord_recordErrno e).set Reg.fsm_req FsmState.halt.code).bridge

theorem State.faultCheck_outputs : s.faultCheck.out = s.out ∧ s.faultCheck.bridge = s.bridge := by
  unfold State.faultCheck State.when
  split_ifs <;> simp

/-- No sink is called before S6. -/
theorem State.ingested_outputs (hguard : s.guardOpen = false) (fb : Feedback) :
    (s.ingested fb).out = Outputs.none ∧ (s.ingested fb).bridge = s.bridge := by
  have hfilter : (s.measured fb).faultCheck.OnlyRecord (s.ingested fb) := State.onlyRecord_tvmFilter
  obtain ⟨hout, hbridge⟩ := State.faultCheck_outputs (s := s.measured fb)
  exact ⟨(hfilter.out.trans hout).trans (State.measured_out hguard fb),
    (hfilter.bridge.trans hbridge).trans (s.measured_bridge fb)⟩

theorem State.ingested_runs (hs : s.sound = true) (fb : Feedback) : (s.ingested fb).tl.unmodelled = none :=
  (State.reach_ingested fb).runs (State.sound_start hs) rfl

theorem State.ingested_faultFree {fb : Feedback} (hfree : s.faultFree fb = true) :
    s.ingested fb = (s.measured fb).tvmFilter := by
  obtain ⟨hcurrent, hvoltage⟩ : (s.measured fb).overCurrent = false ∧ (s.measured fb).overVoltage = false := by
    simpa [State.faultFree] using hfree
  rw [State.ingested, State.faultCheck_none hcurrent hvoltage]

/-- Without an electrical fault the request slot and the fault code stand, too. -/
theorem State.ingested_faultFree_word {fb : Feedback} (hfree : s.faultFree fb = true) {n : Nat}
    (hn : feedbackRegs.has n = false) : (s.ingested fb).word n = s.word n := by
  rw [State.ingested_faultFree hfree, State.reach_tvmFilter.word n hn, s.measured_word fb hn]

theorem State.ingested_faultFree_tl {fb : Feedback} (hfree : s.faultFree fb = true) :
    (s.ingested fb).tl = TickLocal.none := by
  rw [State.ingested_faultFree hfree, State.onlyRecord_tvmFilter.tl, s.measured_tl fb]

end

/-! ### HALT's settle timer (47 R449) -/

section
variable {s t u : State}

/-- What a count of HALT's settle timer leaves of the command FSM's registers. -/
structure State.SettleCounted (s t : State) : Prop where
  up : s.timeUp = true → t.word 464 = 0 ∧ t.word 465 = 0 ∧ t.word 468 = 0 ∧ t.word 469 = 0
  counting : s.timeUp = false → t.word 464 = s.word 464 ∧ t.word 465 = s.word 465 ∧
    t.word 468 = I32.satInc (s.word 468) ∧ t.word 469 = s.word 469

/-- Steps that leave those registers before and after the count. -/
theorem State.SettleCounted.of_words {s' t' : State} (h : s.SettleCounted t)
    (hs : ∀ n ∈ [464, 465, 468, 469], s.word n = s'.word n) (ht : ∀ n ∈ [464, 465, 468, 469], t'.word n = t.word n) :
    s'.SettleCounted t' := by
  simp only [List.forall_mem_cons, List.not_mem_nil, false_implies, implies_true, and_true] at hs ht
  obtain ⟨hs464, hs465, hs468, hs469⟩ := hs
  obtain ⟨ht464, ht465, ht468, ht469⟩ := ht
  have htime : s'.timeUp = s.timeUp := by
    unfold State.timeUp State.i
    rw [hs468, hs469]
  constructor
  · rw [htime, ht464, ht465, ht468, ht469]
    exact h.up
  · rw [htime, ht464, ht465, ht468, ht469, ← hs464, ← hs465, ← hs468, ← hs469]
    exact h.counting

theorem State.tm_value_satInc_legal (hs : s.sound = true) : Kind.intLegal (I32.satInc (s.i Reg.tm_value)) = true :=
  State.Reach.intLegal_satInc (State.legal_word s hs (n := 468) (k := .intNonNeg) (by decide +kernel))

theorem State.settleCounted_haltReturn (hs : s.sound = true) : s.SettleCounted s.haltReturn := by
  have hwf := State.wf_of_sound hs
  have hcount : ∀ n, (s.count1 Reg.tm_value).word n = if n = 468 then I32.satInc (s.word 468) else s.word n :=
    State.word_setLegal hwf (r := Reg.tm_value) (State.tm_value_satInc_legal hs) (by decide)
  have hidle := State.word_enterState_eq (State.wf_count1 hwf Reg.tm_value) .idle
  unfold State.haltReturn State.countThen
  constructor <;> intro htime <;> simp only [htime]
  · exact ⟨hidle 464, hidle 465, hidle 468, hidle 469⟩
  · exact ⟨hcount 464, hcount 465, hcount 468, hcount 469⟩

theorem State.onlyRecord_haltReturn (hs : s.sound = true) : s.OnlyRecord s.haltReturn := by
  have hcount : s.OnlyRecord (s.count1 Reg.tm_value) :=
    (State.OnlyRecord.refl s).set _ _ (State.tm_value_satInc_legal hs)
  unfold State.haltReturn State.countThen
  split
  · exact hcount.trans (State.onlyRecord_enterState _)
  · exact hcount

/-- In HALT no request changes anything but the slot. -/
theorem State.consumeRequest_inHalt (hs : s.sound = true) (hstate : s.word 464 = FsmState.halt.code) :
    s.consumeRequest = s ∨ s.consumeRequest = s.slotEmptied := by
  obtain ⟨q, hq⟩ := State.fsm_exists (n := 466) (by decide +kernel) hs
  by_cases hidle : q = .idle
  · subst hidle
    exact .inl (State.consumeRequest_none hq)
  by_cases hhalt : q = .halt
  · subst hhalt
    exact .inr (State.consumeRequest_haltInHalt hq hstate)
  · exact .inr (State.consumeRequest_rejected hidle hhalt hq (State.gate_busy (by rw [hstate]; decide) hhalt))

/-- The FSM step in HALT phase 1. -/
structure State.HaltServed (s t : State) : Prop where
  record : s.OnlyRecord t
  frame : State.Reach consumeRegs [] s t
  counted : s.SettleCounted t

theorem State.haltServed (hs : s.sound = true) (hstate : s.word 464 = FsmState.halt.code) (hphase : s.word 465 = 1) :
    s.HaltServed s.fsmStep := by
  have hconsume : State.Reach consumeRegs [] s s.consumeRequest := State.reach_consumeRequest
  have hrecord : s.OnlyRecord s.consumeRequest := by
    rcases State.consumeRequest_inHalt hs hstate with h | h <;> rw [h]
    · exact .refl s
    · exact (State.OnlyRecord.refl s).set _ _
  have hword : ∀ n, n ≠ 466 → s.consumeRequest.word n = s.word n := fun n hn => by
    rcases State.consumeRequest_inHalt hs hstate with h | h <;> rw [h]
    exact State.word_set_other hn nofun
  have hcs := hconsume.sound hs
  have hstep : s.fsmStep = s.consumeRequest.haltReturn := by
    have hphase' : s.consumeRequest.word 465 = 1 := (hword 465 (by decide)).trans hphase
    rw [State.fsmStep, State.runState_halt ((hword 464 (by decide)).trans hstate), State.runHalt,
      if_neg (by simp [State.phaseIs, hphase']), if_pos (by simp [State.phaseIs, hphase'])]
  rw [hstep]
  refine ⟨hrecord.trans (State.onlyRecord_haltReturn hcs), hconsume.andThen State.reach_haltReturn,
    (State.settleCounted_haltReturn hcs).of_words (fun n hn => hword n ?_) (fun _ _ => rfl)⟩
  rintro rfl
  exact absurd hn (by decide)

theorem State.onlyRecord_deferredPart : s.OnlyRecord s.deferredPart :=
  (State.OnlyRecord.refl s).when _ _ fun u => by
    unfold State.applyDeferred
    split
    · exact (State.OnlyRecord.refl u).set _ _
    · exact .refl u

/-- With the lookup FSM DISABLED and no EKF step postponed, S7 and S8 find nothing to do. -/
theorem State.HaltServed.steps7to8 (h : s.HaltServed t) (hmode : s.word 320 = 0) (hpending : s.word 389 = 0) :
    t.lookupPart.postponedPart = t := by
  rw [State.lookupPart_disabled ((h.frame.word 320 (by decide)).trans hmode),
    State.postponedPart_none ((h.frame.word 389 (by decide)).trans hpending)]

/-- S9 writes the slot at most. -/
theorem State.HaltServed.deferredPart (h : s.HaltServed t) : s.HaltServed t.deferredPart where
  record := h.record.trans State.onlyRecord_deferredPart
  frame := h.frame.andThen State.reach_deferredPart
  counted := h.counted.of_words (fun _ _ => rfl) fun n hn =>
    State.reach_deferredPart.word n (by fin_cases hn <;> decide)

end

/-- Settles O27: S6 counts whatever stands in the slot, S7 and S8 find nothing to do, and S9 writes the slot at most. -/
theorem haltSettlesToIdle : Obligations.HaltSettlesToIdle := by
  unfold Obligations.HaltSettlesToIdle
  intro s fb hinv hstate hphase hmode hpending
  obtain ⟨hsound, -, hguard, -, -⟩ := s.inv_iff.mp hinv
  have hword : ∀ n, ingestRegs.has n = false → (s.ingested fb).word n = s.word n := fun n => State.ingested_word fb
  have hmode' := (hword 320 (by decide)).trans hmode
  obtain ⟨hout, hbridge⟩ := State.ingested_outputs hguard fb
  have hstep := State.haltServed (State.ingested_sound hsound fb) ((hword 464 (by decide)).trans hstate)
    ((hword 465 (by decide)).trans hphase)
  have hserved := hstep.deferredPart
  have hsequence : s.startOp.openTick.sequence fb = (s.ingested fb).fsmStep.deferredPart := by
    rw [State.sequence_start, ← State.ingested, hstep.steps7to8 hmode' ((hword 389 (by decide)).trans hpending)]
  have hexec := exec_tick_completes hguard fb (by rw [hsequence, hserved.record.tl, State.ingested_runs hsound])
  rw [hsequence] at hexec
  generalize (s.ingested fb).fsmStep.deferredPart = t at *
  have hcounted : s.SettleCounted t :=
    hserved.counted.of_words (fun n hn => hword n (by fin_cases hn <;> decide)) (fun _ _ => rfl)
  have htime : (s.i Reg.tm_end).sle (I32.satInc (s.word 468)) = s.timeUp := rfl
  refine ⟨_, hexec, congrArg Outputs.sinks (hserved.record.out.trans hout), hserved.record.bridge.trans hbridge,
    (hserved.frame.word 320 (by decide)).trans hmode', ?_⟩
  rw [htime]
  split_ifs with hup
  · exact hcounted.up hup
  · rw [← hstate, ← hphase]
    exact hcounted.counting (Bool.eq_false_iff.mpr hup)

/-! ### LU_SHUTDOWN (47 R451) -/

section
variable {s : State}

/-- An accepted LU_SHUTDOWN goes on to HALT. -/
def State.shutdownTaken (s : State) : State := (s.requestTaken .luShutdown).enterState .halt

theorem State.reach_shutdownTaken : State.Reach consumeRegs [] s s.shutdownTaken :=
  (State.reach_requestTaken _).andThen (State.reach_enterState _)

theorem State.onlyRecord_shutdownTaken : s.OnlyRecord s.shutdownTaken :=
  (State.onlyRecord_requestTaken _).trans (State.onlyRecord_enterState _)

theorem State.word_shutdownTaken (hs : s.sound = true) :
    s.shutdownTaken.word 464 = FsmState.halt.code ∧ s.shutdownTaken.word 466 = 0 ∧ s.shutdownTaken.word 467 = 0 := by
  obtain ⟨-, -, h466, h467, -, -⟩ := State.word_requestTaken (State.wf_of_sound hs) .luShutdown
  have hhalt := State.word_enterState_eq (State.wf_of_sound ((State.reach_requestTaken .luShutdown).sound hs)) .halt
  exact ⟨hhalt 464, (hhalt 466).trans h466, (hhalt 467).trans h467⟩

/-- HALT's phase 0 runs in the step that takes LU_SHUTDOWN. -/
theorem State.fsmStep_shutdown (hwf : s.regs.wf = true) (hstate : s.word 464 = 0)
    (hreq : s.word 466 = FsmState.luShutdown.code) (hmode : s.word 320 ≠ 0) :
    s.fsmStep = s.shutdownTaken.haltEntry := by
  obtain ⟨h464, h465, -⟩ := State.word_requestTaken hwf .luShutdown
  rw [State.fsmStep_accepted (by decide) (by decide) hreq ((State.gate_driven (by decide)).mpr ⟨hstate, hmode⟩),
    State.runState_shutdown h464]
  exact if_pos (beq_iff_eq.mpr h465)

end

/-- Settles O29: S6 takes LU_SHUTDOWN and runs HALT's phase 0, after which S7 to S9 find nothing to do. -/
theorem shutdownStopsTheMotor : Obligations.ShutdownStopsTheMotor := by
  unfold Obligations.ShutdownStopsTheMotor
  intro s fb hinv hstate hreq hmode hfree
  obtain ⟨hsound, -, hguard, -, -⟩ := s.inv_iff.mp hinv
  have hword : ∀ n, feedbackRegs.has n = false → (s.ingested fb).word n = s.word n := fun n =>
    State.ingested_faultFree_word hfree
  have hisound := State.ingested_sound hsound fb
  have htl := State.ingested_faultFree_tl hfree
  obtain ⟨hout, -⟩ := State.ingested_outputs hguard fb
  have hstep := State.fsmStep_shutdown (State.wf_of_sound hisound) ((hword 464 (by decide)).trans hstate)
    ((hword 466 (by decide)).trans hreq) ((hword 320 (by decide)).trans_ne hmode)
  have hsequence := s.sequence_start fb
  rw [← State.ingested, hstep] at hsequence
  have h195 := hword 195 (by decide)
  generalize s.ingested fb = u at *
  have htaken : State.Reach consumeRegs [] u u.shutdownTaken := State.reach_shutdownTaken
  have hrecord : u.OnlyRecord u.shutdownTaken := State.onlyRecord_shutdownTaken
  obtain ⟨h464, h466, h467⟩ := State.word_shutdownTaken hisound
  have hentered := State.haltEntered (htaken.sound hisound) (by rw [hrecord.tl, htl]; rfl)
  have hother : ∀ n, haltRegs.has n = false → u.shutdownTaken.haltEntry.word n = u.shutdownTaken.word n :=
    State.reach_haltEntry_any.word
  rw [hentered.steps7to8, State.deferredPart_unmarked (by rw [hentered.marks, hrecord.tl, htl]; rfl)] at hsequence
  have hexec := exec_tick_completes hguard fb (by rw [hsequence, hentered.marks, hrecord.tl, htl]; rfl)
  rw [hsequence] at hexec
  generalize u.shutdownTaken.haltEntry = t at *
  obtain ⟨h468, h469⟩ := hentered.timer
  refine ⟨_, hexec, hentered.state.trans h464, hentered.phase, (hother 466 (by decide)).trans h466,
    (hother 467 (by decide)).trans h467, h468, ?_, hentered.mode, ?_⟩
  · exact h469.trans ((htaken.word 195 (by decide)).trans h195)
  · exact hentered.sinks.trans (by rw [hrecord.out, hout]; rfl)

/-! ### LU_INITIATE (47 R450) -/

section
variable {s t : State}

theorem State.OnlyRecord.unitFrame (h : s.OnlyRecord t) (r : Nat → Reg)
    (hk : (r 0).kind = .f32 ∧ (r 1).kind = .f32 := by decide) : s.OnlyRecord (t.unitFrame r) :=
  (h.setAny _ _ (.inl hk.1)).setAny _ _ (.inl hk.2)

/-- The three resets of LU_INITIATE. -/
def State.initiateReset (s : State) : State := s.estimatorReset.sensorsReset.loopsReset

theorem State.reach_initiateReset : State.Reach initiateRegs [] s s.initiateReset :=
  (State.reach_estimatorReset.trans State.reach_sensorsReset).andThen State.reach_loopsReset

theorem State.onlyRecord_initiateReset : s.OnlyRecord s.initiateReset := by
  have hestimator : s.OnlyRecord s.estimatorReset :=
    ((((((((State.OnlyRecord.refl s).unitFrame _).unitFrame _).unitFrame _).unitFrame _).unitFrame _).unitFrame
      _).unitFrame _).clear _ |>.clear _
  have hsensors : ∀ u : State, u.OnlyRecord u.sensorsReset := fun u =>
    ((((State.OnlyRecord.refl u).unitFrame _).unitFrame _).unitFrame _).clear _
  exact (hestimator.trans (hsensors _)).clear loopRegs

/-- What LU_INITIATE leaves. -/
structure State.Initiated (s t : State) : Prop where
  sinks : t.out.sinks = s.out.sinks ++ [.z 7]
  marks : t.tl = s.tl
  state : t.word 464 = 0
  phase : t.word 465 = 0
  mode : t.word 320 = LuMode.detached.code
  timer : t.word 324 = 0
  mask : t.word 291 = 7

theorem State.initiated (hs : s.sound = true) (hphase : s.word 465 = 0) : s.Initiated s.runInitiate := by
  have hrun : s.runInitiate = ((((s.initiateReset.set Reg.lu_mode LuMode.detached.code).set Reg.lu_tm 0).set
      Reg.flux_detach_tm 0).emitZ 7).enterState .idle := if_pos (beq_iff_eq.mpr hphase)
  have hreset : State.Reach initiateRegs [] s s.initiateReset := State.reach_initiateReset
  have hrecord : s.OnlyRecord s.initiateReset := State.onlyRecord_initiateReset
  have hwf := State.wf_of_sound (hreset.sound hs)
  rw [hrun]
  generalize s.initiateReset = u at *
  have hwf1 := State.wf_set hwf Reg.lu_mode LuMode.detached.code
  have hwf2 := State.wf_set hwf1 Reg.lu_tm 0
  have hmodes : ∀ n, (((u.set Reg.lu_mode LuMode.detached.code).set Reg.lu_tm 0).set Reg.flux_detach_tm 0).word n =
      if n = 354 then 0 else if n = 324 then 0 else if n = 320 then LuMode.detached.code else u.word n := fun n => by
    rw [State.word_setLegal hwf2 (by decide) (by decide), State.word_setLegal hwf1 (by decide) (by decide),
      State.word_setLegal hwf (by decide) (by decide)]
  have hrecord' := ((hrecord.set Reg.lu_mode LuMode.detached.code).set Reg.lu_tm 0).set Reg.flux_detach_tm 0
  have hvs := (((hreset.setConst Reg.lu_mode LuMode.detached.code).setConst Reg.lu_tm 0).setConst Reg.flux_detach_tm
    0).sound hs
  generalize ((u.set Reg.lu_mode LuMode.detached.code).set Reg.lu_tm 0).set Reg.flux_detach_tm 0 = v at *
  have hz : State.Reach legRegs [] v (v.emitZ 7) := State.reach_emitZ 7 (by decide)
  have hcalls := (State.onlyRecord_emitZ (s := v) 7).trans (State.onlyRecord_enterState .idle)
  have hidle : State.Reach fsmRegs [] (v.emitZ 7) ((v.emitZ 7).enterState .idle) := State.reach_enterState _
  obtain ⟨h464, h465⟩ := State.word_enterState (State.wf_of_sound (hz.sound hvs)) .idle
  exact {
    sinks := by rw [hcalls.out, State.callZ_out, hrecord'.out]
    marks := by rw [hcalls.tl, State.callZ_tl, hrecord'.tl]
    state := h464
    phase := h465
    mode := by rw [hidle.word 320 (by decide), hz.word 320 (by decide)]; exact hmodes 320
    timer := by rw [hidle.word 324 (by decide), hz.word 324 (by decide)]; exact hmodes 324
    mask := (hidle.word 291 (by decide)).trans (State.word_emitZ (State.wf_of_sound hvs) 7 (.inl (by decide))) }

/-- In IDLE with the lookup FSM DISABLED the FSM step takes LU_INITIATE and runs it. -/
theorem State.fsmStep_initiated (hs : s.sound = true) (hstate : s.word 464 = 0)
    (hreq : s.word 466 = FsmState.luInitiate.code) (hmode : s.word 320 = 0) : s.Initiated s.fsmStep := by
  obtain ⟨h464, h465, -⟩ := State.word_requestTaken (State.wf_of_sound hs) .luInitiate
  have hrecord : s.OnlyRecord (s.requestTaken .luInitiate) := State.onlyRecord_requestTaken _
  have hinitiated := State.initiated ((State.reach_requestTaken _).sound hs) h465
  rw [State.fsmStep_accepted (by decide) (by decide) hreq ((State.gate_atRest (by decide)).mpr ⟨hstate, hmode⟩),
    State.runState_initiate h464]
  exact { hinitiated with
    sinks := by rw [hinitiated.sinks, hrecord.out]
    marks := hinitiated.marks.trans hrecord.tl }

/-- The startup timer has not ended at 0, if it is set. -/
theorem State.Initiated.waitsDetached (h : s.Initiated t) (ht : t.sound = true) (hstartup : t.word 81 ≠ 0) :
    t.WaitsDetached := by
  refine State.waitsDetached_of_lt ht h.mode ?_
  rw [h.timer]
  exact Nat.pos_of_ne_zero fun hzero => hstartup (BitVec.eq_of_toNat_eq hzero)

end

/-! ### The lookup step of a wait in DETACHED (42 R230, R240) -/

section
variable {s : State}

/-- With its edges shut, the step counts. -/
theorem State.WaitsDetached.luStep_eq (h : s.WaitsDetached) (hs : s.sound = true) :
    s.luStep = s.luUpdate.luFollow.count1 Reg.lu_tm := by
  have hupdate : State.Reach luUpdateRegs [] s s.luUpdate := State.reach_luUpdate_keepsMode
  have hu := h.of_words (hupdate.word 320 (by decide)) (hupdate.word 324 (by decide)) (hupdate.word 81 (by decide))
  rw [State.luStep_eq hs, State.luFinish, hu.edge, hu.transition]
  rfl

theorem State.WaitsDetached.luStep_words (h : s.WaitsDetached) (hs : s.sound = true) :
    s.luStep.word 324 = I32.satInc (s.word 324) ∧ s.luStep.word 291 = s.word 291 := by
  have hupdate : State.Reach luUpdateRegs [] s s.luUpdate := State.reach_luUpdate_keepsMode
  have hfollow : State.Reach luFollowRegs [.illegalCode] s.luUpdate s.luUpdate.luFollow :=
    State.reach_luFollow_keepsMode
  have hword : ∀ n, luUpdateRegs.has n = false → luFollowRegs.has n = false →
      s.luUpdate.luFollow.word n = s.word n := fun n hn hn' => (hfollow.word n hn').trans (hupdate.word n hn)
  have htimer := hword 324 (by decide) (by decide)
  rw [h.luStep_eq hs]
  generalize hu : s.luUpdate.luFollow = u at *
  have hus : u.sound = true := hu ▸ hfollow.sound (hupdate.sound hs)
  have hlegal : Kind.intLegal (I32.satInc (u.i Reg.lu_tm)) = true :=
    State.Reach.intLegal_satInc (State.legal_word u hus (n := 324) (k := .intNonNeg) (by decide +kernel))
  refine ⟨?_, (State.word_set_other (r := Reg.lu_tm) (by decide) nofun).trans (hword 291 (by decide) (by decide))⟩
  rw [← htimer]
  exact State.word_set_same (r := Reg.lu_tm) (State.wf_of_sound hus) hlegal

/-- In DETACHED no voltage is issued, and a drawn duty leaves the mask of the Z sink. -/
theorem State.checkedDrive_mask (hs : s.sound = true) (he : s.tl.emitted = false) (hmode : s.modeIs .detached = true) :
    s.checkedDrive.word 291 = s.word 291 := by
  unfold State.checkedDrive
  split
  · rw [State.drive, if_pos hmode]
    exact State.reach_mileage.word 291 (by decide)
  · have hraise : State.Reach faultRegs [] s (s.raise .invalidOperation false) := State.reach_raise _ _
    rw [State.frameFault, ← hraise.word 291 (by decide)]
    have hus := hraise.sound hs
    have hue : (s.raise .invalidOperation false).tl.emitted = false := (hraise.quiet (by simp)).trans he
    generalize s.raise .invalidOperation false = u at *
    unfold State.dutyDraw
    dsimp only
    split
    · rfl
    · exact State.word_emitDuty_ne (s := { u with draws := u.draws + 1 }) (State.drawnDuty_ok hus _) hue
        (.inr (by decide)) (.inl (by decide))

/-- S7 of a wait in DETACHED: the mode stands, its timer is counted, and the legs stay in Z. -/
theorem State.WaitsDetached.lookupPart_words (h : s.WaitsDetached) (hs : s.sound = true) (he : s.tl.emitted = false) :
    s.lookupPart.word 320 = LuMode.detached.code ∧ s.lookupPart.word 324 = I32.satInc (s.word 324) ∧
      s.lookupPart.word 291 = s.word 291 := by
  have hmode : s.word 320 = LuMode.detached.code := beq_iff_eq.mp h.1
  have henabled : s.word 320 ≠ 0 := by rw [hmode]; decide
  have hdisabled : ¬ s.modeIs .disabled = true := mt State.modeIs_disabled_iff.mp henabled
  obtain ⟨htimer, hmask⟩ := h.luStep_words hs
  have hstep : State.Reach luRegs [] s s.luStep := State.reach_luStep hs (by simpa using hdisabled)
  have hproject : State.Reach [(269, 270)] [] s.luStep s.luStep.projectCurrent := State.reach_projectCurrent
  have hdetached : s.luStep.projectCurrent.modeIs .detached = true := by
    unfold State.modeIs
    rw [hproject.word 320 (by decide)]
    exact h.luStep hs
  refine ⟨h.lookupPart hs, ?_, ?_⟩
  · rw [State.word_lookupPart hs henabled (by decide) (by decide), htimer]
  · rw [State.lookupPart, if_neg hdisabled, State.checkedDrive_mask (hproject.sound (hstep.sound hs))
      ((hproject.quiet (by simp)).trans ((hstep.quiet (by simp)).trans he)) hdetached, hproject.word 291 (by decide),
      hmask]

/-- S7 to S9 of such a wait reach no `UNMODELLED` condition. -/
theorem State.WaitsDetached.steps7to9_runs (h : s.WaitsDetached) (hs : s.sound = true) (htl : s.tl = TickLocal.none) :
    s.lookupPart.postponedPart.deferredPart.tl.unmodelled = none := by
  have hundriven : s.Undriven := ⟨hs, by rw [htl]; rfl, .inr ⟨h, by rw [htl]; rfl⟩⟩
  obtain ⟨hsound, hruns⟩ := hundriven.lookupPart_runs
  exact State.reach_deferredPart.runs (State.reach_postponedPart.sound hsound)
    (State.reach_postponedPart.runs hsound hruns)

/-- S7 to S9 of a sound state call their sinks after those already called. -/
theorem State.steps7to9_sinks (hs : s.sound = true) :
    ∃ l, s.lookupPart.postponedPart.deferredPart.out.sinks = s.out.sinks ++ l := by
  have hreach : State.Reach tickRegs Fault.ofVoltage s s.lookupPart.postponedPart.deferredPart :=
    (((State.reach_lookupPart hs).mono).andThen State.reach_postponedPart (hF := nofun)).andThen
      State.reach_deferredPart (hF := nofun)
  obtain ⟨l, hl, -, -⟩ := hreach.sinks
  exact ⟨l, hl⟩

end

/-- Settles O28: S6 runs LU_INITIATE, whose Z mask is the first sink call, and S7 makes the first step of its wait in
DETACHED. -/
theorem initiateEntersDetached : Obligations.InitiateEntersDetached := by
  unfold Obligations.InitiateEntersDetached
  intro s fb hinv hstate hreq hmode hstartup hfree
  obtain ⟨hsound, -, hguard, -, -⟩ := s.inv_iff.mp hinv
  have hword : ∀ n, feedbackRegs.has n = false → (s.ingested fb).word n = s.word n := fun n =>
    State.ingested_faultFree_word hfree
  have hisound := State.ingested_sound hsound fb
  obtain ⟨hout, -⟩ := State.ingested_outputs hguard fb
  have hinitiated := State.fsmStep_initiated hisound ((hword 464 (by decide)).trans hstate)
    ((hword 466 (by decide)).trans hreq) ((hword 320 (by decide)).trans hmode)
  have hreach := State.reach_fsmStep hisound
  have hfsound := hreach.sound hisound
  have htl := hinitiated.marks.trans (State.ingested_faultFree_tl hfree)
  have hwaits := hinitiated.waitsDetached hfsound
    (((hreach.word 81 (by decide)).trans (hword 81 (by decide))).trans_ne hstartup)
  obtain ⟨hdetached, htimer, hmask⟩ := hwaits.lookupPart_words hfsound (by rw [htl]; rfl)
  obtain ⟨l, hl⟩ := State.steps7to9_sinks hfsound
  have hlookup : State.Reach lookupRegs Fault.ofVoltage _ _ := State.reach_lookupPart hfsound
  have hsequence := s.sequence_start fb
  rw [← State.ingested] at hsequence
  have hexec := exec_tick_completes hguard fb (by rw [hsequence, hwaits.steps7to9_runs hfsound htl])
  have htick : ∀ n, fluxRegs.has n = false → faultRegs.has n = false →
      (s.startOp.openTick.sequence fb).closeTick.word n = (s.ingested fb).fsmStep.lookupPart.word n := fun n =>
    State.word_tick hguard hexec
  refine ⟨_, hexec, ?_, ?_, ?_, ?_, ?_, ?_⟩
  · rw [htick 464 (by decide) (by decide), hlookup.word 464 (by decide), hinitiated.state]
  · rw [htick 465 (by decide) (by decide), hlookup.word 465 (by decide), hinitiated.phase]
  · rw [htick 320 (by decide) (by decide), hdetached]
  · rw [htick 324 (by decide) (by decide), htimer, hinitiated.timer]
    rfl
  · rw [htick 291 (by decide) (by decide), hmask, hinitiated.mask]
  · rw [State.closeTick_out, hsequence, hl, hinitiated.sinks, hout]
    rfl

end Sys2Proof.Machine

end

section
/-!
PROOFS. The host operations (spec/48_host_ops.md R482-R498), taking a fault (spec/60_exceptions.md R500, R505) and the
state after reset (spec/70_reset_and_hazards.md R551).
-/

namespace Sys2Proof.Machine

/-! ### The conditions a TICK can stop at (60 R505) -/

section
variable {s : State}

/-- A TICK outside a GUARD that reaches an `UNMODELLED` condition ends in the fault of that name. -/
theorem exec_tick_stops (hguard : s.guardOpen = false) {fb : Feedback} {why : Fault}
    (hstop : (s.startOp.openTick.sequence fb).tl.unmodelled = some why) : exec (.tick fb) s = .fault why := by
  simp [exec, execTick, hguard, State.runTick, State.endTick, hstop]

/-- The mark of a TICK from a sound state is clear, or names a condition of the voltage stage. -/
theorem State.sequence_stop_mem {fb : Feedback} {why : Fault} (hs : s.sound = true)
    (hstop : (s.startOp.openTick.sequence fb).tl.unmodelled = some why) : why ∈ Fault.ofVoltage :=
  have hstart := State.sound_start hs
  ((State.reach_sequence hstart fb).stops hstart why hstop).resolve_left nofun

end

/-- Settles O4: steps S1 to S9 reach no condition outside the voltage stage, and without one the TICK completes. -/
theorem tickStopsOnlyInVoltageStage : Obligations.TickStopsOnlyInVoltageStage := by
  unfold Obligations.TickStopsOnlyInVoltageStage
  intro s fb hs hguard
  cases hmark : (s.startOp.openTick.sequence fb).tl.unmodelled with
  | none => exact .inl ⟨_, exec_tick_completes hguard fb hmark⟩
  | some why =>
    exact .inr ⟨why, exec_tick_stops hguard hmark, by simpa [Fault.ofVoltage] using State.sequence_stop_mem hs hmark⟩

/-- Settles O5, by the operation's arms: the rows but TICK answer a next state, refused or not. -/
theorem onlyTickStops : Obligations.OnlyTickStops := by
  unfold Obligations.OnlyTickStops
  exact fun _ s => exec_next_of_not_tick s

/-! ### Taking a fault (60 R500) -/

section
variable {s : State}

/-- No HALT is requested, latched or running. -/
theorem State.haltUnderway_eq_false : s.haltUnderway = false ↔
    ¬(s.word 466 = FsmState.halt.code ∨ s.tl.faultLatch = true ∨ s.word 464 = FsmState.halt.code) := by
  rw [Bool.eq_false_iff, State.haltUnderway, ne_eq, Bool.or_eq_true, Bool.or_eq_true, beq_iff_eq, beq_iff_eq, or_assoc]

theorem State.onlyRegs_recordErrno (e : Errno) : s.recordErrno e = { s with regs := (s.recordErrno e).regs } := by
  unfold State.recordErrno
  split
  · exact State.onlyRegs_set s (Errno.code_legal e)
  · rfl

/-- Raising a fault changes the record and the marks. -/
theorem State.raise_frame (e : Errno) (early : Bool) :
    s.raise e early = { s with regs := (s.raise e early).regs, tl := (s.raise e early).tl } := by
  have hrecord := State.onlyRegs_recordErrno (s := s) e
  unfold State.raise
  split
  · rw [hrecord]
  · rw [State.onlyRegs_trans hrecord (State.onlyRegs_set _ (FsmState.code_legal .halt))]

end

/-- Settles O34: the code is recorded in either form of the request, which is deferred to the latch or put into the
slot. -/
theorem raiseKeepsTheFirstCause : Obligations.RaiseKeepsTheFirstCause := by
  unfold Obligations.RaiseKeepsTheFirstCause
  intro s code early hs
  refine ⟨(State.reach_raise code early).word, State.raise_frame code early, ?_, ?_⟩
  · simp only [State.errno_raise (State.wf_of_sound hs), State.haltUnderway_eq_false]
  · split
    next hlate =>
      obtain ⟨hsame, rfl⟩ := hlate
      exact ⟨State.word_raise_late code hsame (by decide), State.raise_late_tl code hsame⟩
    next hnow =>
      have hnow : s.params.haltSameTick = true ∨ early = false := by
        simpa only [not_and_or, Bool.not_eq_false, Bool.not_eq_true] using hnow
      exact ⟨State.request_raise_now hs code hnow, (State.onlyRecord_raise_now code hnow).tl⟩

/-! ### The request latch (48 R487) -/

/-- Each REQ row has the word of its state's code, and latches that state. -/
theorem exec_requestRow {p : Instr × FsmState} (hp : p ∈ requestRows) :
    encodeWord p.1 = 0x10000000 + p.2.code ∧ ∀ s, exec p.1 s = .next (s.startOp.request p.2) := by
  simp only [requestRows, List.mem_cons, List.not_mem_nil, or_false] at hp
  rcases hp with rfl | rfl | rfl | rfl | rfl | rfl | rfl | rfl | rfl | rfl <;> exact ⟨by decide, fun _ => rfl⟩

section
variable {s : State}

theorem FsmState.code_injective {p q : FsmState} (h : p.code = q.code) : p = q :=
  Option.some.inj (by rw [← FsmState.ofWord_code p, h, FsmState.ofWord_code])

/-- A pending HALT is not displaced. -/
theorem State.request_kept {q : FsmState} (h : s.word 466 = FsmState.halt.code ∧ q ≠ .halt) : s.request q = s :=
  if_pos h

theorem State.request_latched {q : FsmState} (h : ¬(s.word 466 = FsmState.halt.code ∧ q ≠ .halt)) :
    s.request q = s.store 466 q.code :=
  (if_neg h).trans (State.set_legal _ _ (FsmState.code_legal q))

theorem State.onlyRegs_request (q : FsmState) : s.request q = { s with regs := (s.request q).regs } := by
  unfold State.request
  split
  · rfl
  · exact State.onlyRegs_set s (FsmState.code_legal q)

/-- The slot after a request. -/
theorem State.slot_request (hwf : s.regs.wf = true) (q : FsmState) : (s.request q).word 466 =
    if s.word 466 = FsmState.halt.code ∧ q ≠ .halt then s.word 466 else q.code := by
  split
  next h => rw [State.request_kept h]
  next h => rw [State.request_latched h, State.word_store s hwf, if_pos rfl]

/-- The same request again finds the slot as it would leave it. -/
theorem State.request_request (hwf : s.regs.wf = true) (q : FsmState) : (s.request q).request q = s.request q := by
  by_cases h : s.word 466 = FsmState.halt.code ∧ q ≠ .halt
  · rw [State.request_kept h, State.request_kept h]
  · have hslot : (s.store 466 q.code).word 466 = q.code := by rw [State.word_store s hwf, if_pos rfl]
    have hagain : ¬((s.store 466 q.code).word 466 = FsmState.halt.code ∧ q ≠ .halt) := by
      rw [hslot]
      rintro ⟨hcode, hq⟩
      exact hq (FsmState.code_injective hcode)
    rw [State.request_latched h, State.request_latched hagain, State.store_store hwf]

/-- A request leaves the outputs, which are forgotten before or after it alike. -/
theorem State.startOp_request (q : FsmState) : (s.startOp.request q).startOp = s.startOp.request q := by
  by_cases h : s.startOp.word 466 = FsmState.halt.code ∧ q ≠ .halt
  · rw [State.request_kept h, State.startOp_startOp]
  · rw [State.request_latched h, State.startOp_store, State.startOp_startOp]

end

/-- Settles O17: every row is one request, which stores its code or leaves a pending HALT, and whose repetition stores
the same code over it. -/
theorem requestLatch : Obligations.RequestLatch := by
  unfold Obligations.RequestLatch
  intro p hp s hs
  obtain ⟨hword, hexec⟩ := exec_requestRow hp
  have hwf : s.startOp.regs.wf = true := by simpa using State.wf_of_sound hs
  refine ⟨hword, _, hexec s, ?_, State.onlyRegs_request p.2, ?_, fun n hn => ?_⟩
  · rw [hexec, State.startOp_request, State.request_request hwf]
  · rw [State.slot_request hwf, State.startOp_word]
  · rw [State.word_request p.2 hn, State.startOp_word]

/-! ### Refused operations (48 R488) -/

section
variable {s : State}

theorem State.startOp_setInbox (inbox : List Segment) : (s.setInbox inbox).startOp = s.startOp.setInbox inbox := by
  cases h : s.guardOpen <;> simp [State.startOp, State.setInbox, h]

/-- The refusal of an operation that has just started, written out. -/
theorem State.startOp_refuse (why : RefusedOp) : s.startOp.refuse why = { s.startOp with
    out := { s.startOp.out with refused := s.startOp.out.refused ++ [why] }
    refusals := s.refusals + 1 } := by
  rw [State.refuse, State.startOp_refusals]

theorem exec_regRead_unassigned {reg : BitVec 9} (h : Reg.assigned reg.toNat = false) :
    exec (.regRead reg) s = .next (s.startOp.refuse (.undecodable .unassigned)) := by
  simp [exec, execRegRead, h]

theorem exec_regWrite_unassigned {reg : BitVec 9} (v : Word) (h : Reg.assigned reg.toNat = false) :
    exec (.regWrite reg v) s = .next (s.startOp.refuse (.undecodable .unassigned)) := by
  simp [exec, execRegWrite, h]

theorem exec_regWrite_illegal {reg : BitVec 9} {v : Word} (hreg : Reg.assigned reg.toNat = true)
    (hv : Reg.mayHold reg.toNat v = false) :
    exec (.regWrite reg v) s = .next (s.startOp.refuse (.illegalValue reg.toNat v)) := by
  simp [exec, execRegWrite, State.hostWrite, hreg, hv]

/-- Bytes that are no operation are refused, in the state in which they are consumed. -/
theorem step_rejected {b : Byte} {bytes rest : List Byte} {later : List Segment} {why : Reject}
    (hinbox : s.inbox = ⟨false, b :: bytes⟩ :: later) (hdecode : decode (b :: bytes) = .rejected why rest) :
    step s = .next ((s.setInbox (leftOver rest later)).startOp.refuse (.undecodable why)) := by
  simp only [step_unguarded hinbox, State.stepBytes, hdecode, State.refuseWord]

end

/-- Settles O11: each of the five is the refusal mark on the started operation. -/
theorem refusedOperationOnlyRecorded : Obligations.RefusedOperationOnlyRecorded := by
  unfold Obligations.RefusedOperationOnlyRecorded
  intro s
  refine ⟨fun b bytes rest later why hinbox hdecode => ?_, fun reg hreg => ?_, fun reg v hreg => ?_,
    fun reg v hreg hv => ?_, fun fb hguard => ?_⟩
  · rw [step_rejected hinbox hdecode, State.startOp_refuse, State.startOp_setInbox]
    rfl
  · rw [exec_regRead_unassigned hreg, State.startOp_refuse]
  · rw [exec_regWrite_unassigned v hreg, State.startOp_refuse]
  · rw [exec_regWrite_illegal hreg hv, State.startOp_refuse]
  · rw [exec_tick_of_guardOpen hguard, State.startOp_of_guardOpen hguard]
    rfl

/-! ### REG_READ and REG_WRITE (48 R482, R483) -/

/-- A register operation's word as a number: the register's number under the class bits. -/
theorem toNat_append_reg (hi : BitVec 23) (reg : BitVec 9) : (hi ++ reg).toNat = hi.toNat * 512 + reg.toNat := by
  rw [BitVec.toNat_append, ← Nat.shiftLeft_add_eq_or_of_lt reg.isLt, Nat.shiftLeft_eq]

/-- Settles O12: the word is the class above the register's number, and the response is the operation's only change. -/
theorem regReadReturnsTheWord : Obligations.RegReadReturnsTheWord := by
  unfold Obligations.RegReadReturnsTheWord
  exact fun s reg hreg => ⟨toNat_append_reg _ reg, exec_regRead_assigned s hreg⟩

/-- A REG_WRITE of a value the register may not hold is refused, for the register or for the value. -/
theorem exec_regWrite_refused (s : State) {reg : BitVec 9} {v : Word} (hv : Reg.mayHold reg.toNat v = false) :
    ∃ why, exec (.regWrite reg v) s = .next (s.startOp.refuse why) := by
  cases hreg : Reg.assigned reg.toNat with
  | false => exact ⟨_, exec_regWrite_unassigned v hreg⟩
  | true => exact ⟨_, exec_regWrite_illegal hreg hv⟩

/-- Settles O13: a legal value is stored, with `fsm_phase` beside `fsm_state`, and any other is refused. -/
theorem regWriteStoresTheWord : Obligations.RegWriteStoresTheWord := by
  unfold Obligations.RegWriteStoresTheWord
  refine ⟨by decide +kernel, fun s reg v hv => ?_, fun s reg v hs hv => ?_⟩
  · obtain ⟨why, hexec⟩ := exec_regWrite_refused s hv
    exact ⟨_, hexec, by simp⟩
  · have hstart : s.startOp.sound = true := by simpa [State.sound] using hs
    have hword := State.word_store s.startOp (State.wf_of_sound hstart) reg.toNat v
    refine ⟨toNat_append_reg _ reg, _, exec_regWrite_legal s hv, rfl, State.sound_store _ hstart hv, ?_, ?_, ?_⟩
    · rw [hword, if_pos rfl]
    · rintro rfl
      exact hword 465
    · intro n hn hphase
      rw [hword, if_neg hn, if_neg fun h => hphase ⟨BitVec.eq_of_toNat_eq h.1, h.2⟩, State.startOp_word]

/-! ### The state after reset (70 R551) -/

/-- Settles O2: the reset record is canonical and typed, and no mark, GUARD or output stands. -/
theorem resetMeetsInvariant : Obligations.ResetMeetsInvariant := by
  unfold Obligations.ResetMeetsInvariant
  exact State.reset.inv_iff.mpr ⟨by decide +kernel, rfl, rfl, rfl, rfl⟩

/-- A read of a record that begins with registers of one value. -/
theorem RegFile.get_constant_append (ns : List Nat) (w : Word) (rest : RegFile) (n : Nat) :
    RegFile.get (ns.map (·, w) ++ rest) n = if ns.contains n then w else RegFile.get rest n := by
  induction ns with
  | nil => rfl
  | cons k ns ih =>
    rw [List.map_cons, List.cons_append, RegFile.get_cons, ih]
    by_cases h : k = n
    · simp [h]
    · simp [h, Ne.symm h]

/-- The reset record: the calibration scales, `vsi_IF`, and the frames with `hfi_wave`. -/
theorem RegFile.reset_eq : RegFile.reset = [49, 51, 53, 55, 57, 59, 61].map (·, 0x3F800000) ++
    ([292, 293, 294].map (·, 1) ++
      ([321, 331, 336, 344, 355, 393, 395, 400, 411, 424].map (·, 0x3F800000) ++ [])) := rfl

/-- Settles O3: the reset record in its three groups of one value, whose numbers are apart. -/
theorem resetRegisterValues : Obligations.ResetRegisterValues := by
  unfold Obligations.ResetRegisterValues
  refine ⟨fun n _ => ?_, rfl, rfl, rfl, rfl⟩
  have hapart : [292, 293, 294].contains n = true →
      [321, 331, 336, 344, 355, 393, 395, 400, 411, 424].contains n = false := by
    simp only [List.contains_iff_mem, List.mem_cons, List.not_mem_nil, or_false]
    rintro (rfl | rfl | rfl) <;> rfl
  rw [State.word, State.reset, RegFile.reset_eq, RegFile.get_constant_append, RegFile.get_constant_append,
    RegFile.get_constant_append, RegFile.get_nil]
  congr 1
  by_cases hleg : [292, 293, 294].contains n = true
  · rw [if_pos hleg, if_neg (by rw [hapart hleg]; decide), if_pos hleg]
  · rw [if_neg hleg, if_neg hleg]

end Sys2Proof.Machine

end
